-- ==== Sys2Proof/Word.lean ====
section
/-! DEFINITION. The widths of 00_scope.md R5 as types: the 32-bit data and command word, the 64-bit
operand, the slot index and the small unsigned fields. -/

namespace Sys2Proof

/-- `NUM_SLOTS` (R5, R13): the number of field-descriptor slots. -/
abbrev numSlots : Nat := 16

/-- A 32-bit word: a data word (R35) or a command word `CMD` (R49). Document bit n is index n-1 (R6). -/
abbrev Word := BitVec 32

/-- A 64-bit port register: `OPND`, a name tag, a payload or a response register (R5, R7, R24). -/
abbrev Operand := BitVec 64

/-- A slot index. A 4-bit command field names exactly the 16 slots, so no index is out of range (R13). -/
abbrev SlotIx := Fin numSlots

/-- A 6-bit unsigned value: `lsb` or `size` (R13, R34). -/
abbrev UInt6 := BitVec 6

/-- A 2-bit convention code: `01` odd, `10` even (R5, R50). -/
abbrev ConvCode := BitVec 2

/-- `zext_64` of a 32-bit word (R7, R35). -/
abbrev Word.zext (w : Word) : Operand := w.setWidth 64

end Sys2Proof
end

