-- ==== Sys2Proof/Syntax.lean ====
section
/-! DEFINITION. The eleven commands of 30_encoding.md R53, one constructor per row of
spec/opcode_table.json. A constructor holds the fields of CMD that its row uses (R50); the operand OPND is
a port register, so it stands in the state and not here (R23). -/

namespace Sys2Proof

/-- A decoded command. Every term is well formed: each field's type is exactly the width that R50 gives it. -/
inductive Instr where
  /-- `FCFG f<sa>, <lsb>, <size>, #<name>`: construct a field (R63). -/
  | fcfg (sa : SlotIx) (lsb size : UInt6)
  /-- `FFOOT f<sa>`: the footprint (R64). -/
  | ffoot (sa : SlotIx)
  /-- `FUNPACK f<sa>, #<word>`: extract (R65). -/
  | funpack (sa : SlotIx)
  /-- `FPACK f<sa>, #<value>`: insert (R66). -/
  | fpack (sa : SlotIx)
  /-- `FEQ f<sa>, f<sb>`: equality of two fields (R69). -/
  | feq (sa sb : SlotIx)
  /-- `FDESC f<sa>`: the attribute export (R72). -/
  | fdesc (sa : SlotIx)
  /-- `PCFG <conv>`: construct the parity unit (R83). -/
  | pcfg (conv : ConvCode)
  /-- `PSET #<payload>`: set the payload (R84). -/
  | pset
  /-- `PGET`: read the payload (R85). -/
  | pget
  /-- `PPACK`: the parity word of the payload (R86). -/
  | ppack
  /-- `PCOMP <conv>, #<payload>`: the pure parity function (R87). -/
  | pcomp (conv : ConvCode)
  deriving DecidableEq, Repr

end Sys2Proof
end

