-- ==== Sys2Proof/WellFormed.lean ====
section
/-! DEFINITION. Commands as a host writes them in the assembler syntax of 30_encoding.md R57, with integers
where `Instr` has fixed-width fields, and the check that such a line spells a command.
`Instr` itself needs no check: its field types admit exactly the values that R50 can encode. -/

namespace Sys2Proof

/-- The `<conv>` operand of R57: `odd`, `even`, or a raw code `conv=<n>`. -/
inductive AsmConv where
  | odd
  | even
  | raw (n : Nat)
  deriving DecidableEq, Repr

/-- The `#<name>` operand of R57: an integer, or a text that the host's tag mapping turns into a tag. -/
inductive AsmName where
  | num (x : Int)
  | text (t : String)
  deriving DecidableEq, Repr

/-- One line of the assembler syntax of R57. A `#` operand that is omitted is `none`. -/
inductive AsmLine where
  | fcfg (sa lsb size : Nat) (name : Option AsmName)
  | ffoot (sa : Nat)
  | funpack (sa : Nat) (word : Option Int)
  | fpack (sa : Nat) (value : Option Int)
  | feq (sa sb : Nat)
  | fdesc (sa : Nat)
  | pcfg (conv : AsmConv)
  | pset (payload : Option Int)
  | pget
  | ppack
  | pcomp (conv : AsmConv) (payload : Option Int)
  deriving DecidableEq, Repr

/-- `f<n>` is slot n, 0..15 (R57). -/
def AsmLine.slotOk (n : Nat) : Bool := decide (n < numSlots)

/-- `<lsb>` and `<size>` are integers 0..63 (R57). -/
def AsmLine.sixBitOk (n : Nat) : Bool := decide (n < 64)

/-- An integer that the port can carry: in `[-2^63, 2^63 - 1]` (R7, R32). -/
def presentable (x : Int) : Bool := decide (-2 ^ 63 ≤ x ∧ x < 2 ^ 63)

/-- An operand is omitted or presentable (R57, R32). -/
def AsmLine.operandOk : Option Int → Bool
  | none => true
  | some x => presentable x

/-- A name operand is omitted, a presentable integer, or any text (R57). -/
def AsmName.wellFormed : AsmName → Bool
  | .num x => presentable x
  | .text _ => true

/-- A raw convention code is 0..3 (R57). -/
def AsmConv.wellFormed : AsmConv → Bool
  | .odd => true
  | .even => true
  | .raw n => decide (n < 4)

/-- The line spells exactly one command of R53 with an operand the port can carry (R57, R61). -/
def AsmLine.wellFormed : AsmLine → Bool
  | .fcfg sa l z name => slotOk sa && sixBitOk l && sixBitOk z && name.all AsmName.wellFormed
  | .ffoot sa => slotOk sa
  | .funpack sa w => slotOk sa && operandOk w
  | .fpack sa v => slotOk sa && operandOk v
  | .feq sa sb => slotOk sa && slotOk sb
  | .fdesc sa => slotOk sa
  | .pcfg c => c.wellFormed
  | .pset p => operandOk p
  | .pget => true
  | .ppack => true
  | .pcomp c p => c.wellFormed && operandOk p

end Sys2Proof
end

