-- ==== Sys2Proof/Decode.lean ====
section
/-! DEFINITION. The command word: its fields (30_encoding.md R50), the opcode table (R53), the decoder
(R54, R58, R60), the encoder written from the same layout, and the assembler (R57). -/

namespace Sys2Proof

/-! ## Fields of CMD (R50, R51) -/

/-- `OP = CMD[3:0]`. -/
def cmdOp (w : Word) : BitVec 4 := w.extractLsb' 0 4
/-- `SA = CMD[7:4]`. -/
def cmdSa (w : Word) : SlotIx := (w.extractLsb' 4 4).toFin
/-- `SB = CMD[11:8]`. -/
def cmdSb (w : Word) : SlotIx := (w.extractLsb' 8 4).toFin
/-- `LSB = CMD[17:12]`. -/
def cmdLsb (w : Word) : UInt6 := w.extractLsb' 12 6
/-- `SIZE = CMD[23:18]`. -/
def cmdSize (w : Word) : UInt6 := w.extractLsb' 18 6
/-- `CONV = CMD[25:24]`. -/
def cmdConv (w : Word) : ConvCode := w.extractLsb' 24 2
/-- `RSV = CMD[31:26]`. -/
def cmdRsv (w : Word) : BitVec 6 := w.extractLsb' 26 6

/-- The bit layout of R50, most significant field first. -/
def cmdWord (rsv : BitVec 6) (conv : ConvCode) (size lsb : UInt6) (sb sa : SlotIx) (op : BitVec 4) : Word :=
  rsv ++ conv ++ size ++ lsb ++ BitVec.ofFin (w := 4) sb ++ BitVec.ofFin (w := 4) sa ++ op

/-! ## The opcode table (R53) -/

/-- One row of R53: a word is this command exactly when `CMD & mask = pattern`. -/
structure OpcodeRow where
  mnemonic : String
  pattern : Word
  mask : Word
  deriving DecidableEq, Repr

/-- The row of a command (R53). -/
def Instr.row : Instr → OpcodeRow
  | .fcfg _ _ _ => ⟨"FCFG", 0x00000001, 0xFF000F0F⟩
  | .ffoot _ => ⟨"FFOOT", 0x00000002, 0xFFFFFF0F⟩
  | .funpack _ => ⟨"FUNPACK", 0x00000003, 0xFFFFFF0F⟩
  | .fpack _ => ⟨"FPACK", 0x00000004, 0xFFFFFF0F⟩
  | .feq _ _ => ⟨"FEQ", 0x00000005, 0xFFFFF00F⟩
  | .fdesc _ => ⟨"FDESC", 0x00000006, 0xFFFFFF0F⟩
  | .pcfg _ => ⟨"PCFG", 0x00000007, 0xFCFFFFFF⟩
  | .pset => ⟨"PSET", 0x00000008, 0xFFFFFFFF⟩
  | .pget => ⟨"PGET", 0x00000009, 0xFFFFFFFF⟩
  | .ppack => ⟨"PPACK", 0x0000000A, 0xFFFFFFFF⟩
  | .pcomp _ => ⟨"PCOMP", 0x0000000B, 0xFCFFFFFF⟩

/-! ## The decoder (R54, R58, R60) -/

/-- Why a word is illegal (R54). Both reasons raise the one error IllegalCommand. -/
inductive DecodeError where
  /-- `OP` is `0x0` or in `0xC`..`0xF`. -/
  | unassignedOp (op : BitVec 4)
  /-- A field that the opcode's row lists as unused is not zero. -/
  | unusedField (mnemonic : String)
  deriving DecidableEq, Repr

/-- The command that a word's opcode names, with its operand fields, before the check of the unused
fields (R53, R58); none where the opcode is unassigned. -/
def readOperands (w : Word) : Option Instr :=
  match cmdOp w with
  | 0x1#4 => some (.fcfg (cmdSa w) (cmdLsb w) (cmdSize w))
  | 0x2#4 => some (.ffoot (cmdSa w))
  | 0x3#4 => some (.funpack (cmdSa w))
  | 0x4#4 => some (.fpack (cmdSa w))
  | 0x5#4 => some (.feq (cmdSa w) (cmdSb w))
  | 0x6#4 => some (.fdesc (cmdSa w))
  | 0x7#4 => some (.pcfg (cmdConv w))
  | 0x8#4 => some .pset
  | 0x9#4 => some .pget
  | 0xA#4 => some .ppack
  | 0xB#4 => some (.pcomp (cmdConv w))
  | _ => none

/-- The decoder: total on all 32-bit words (R60). -/
def decode (w : Word) : Except DecodeError Instr :=
  match readOperands w with
  | none => .error (.unassignedOp (cmdOp w))
  | some i => if w &&& i.row.mask = i.row.pattern then .ok i else .error (.unusedField i.row.mnemonic)

/-- The host's reading of one opcode-table row: the command whose bits are the `nbits` low bits of `w`,
every bit above them zero. One CMD word is the whole command (R49, R59). -/
def decodeTableWord (nbits w : Nat) : Option Instr :=
  match decode (BitVec.ofNat 32 (w % 2 ^ nbits)) with
  | .ok i => some i
  | .error _ => none

/-! ## The encoder -/

/-- The word of a command: its fields in their places and every unused field zero (R50, R53). -/
def encode : Instr → Word
  | .fcfg sa l z => cmdWord 0 0 z l 0 sa 0x1
  | .ffoot sa => cmdWord 0 0 0 0 0 sa 0x2
  | .funpack sa => cmdWord 0 0 0 0 0 sa 0x3
  | .fpack sa => cmdWord 0 0 0 0 0 sa 0x4
  | .feq sa sb => cmdWord 0 0 0 0 sb sa 0x5
  | .fdesc sa => cmdWord 0 0 0 0 0 sa 0x6
  | .pcfg c => cmdWord 0 c 0 0 0 0 0x7
  | .pset => cmdWord 0 0 0 0 0 0 0x8
  | .pget => cmdWord 0 0 0 0 0 0 0x9
  | .ppack => cmdWord 0 0 0 0 0 0 0xA
  | .pcomp c => cmdWord 0 c 0 0 0 0 0xB

/-! ## The assembler (R57) -/

/-- The OPND value of an optional `#` operand: omitted means 0, and a negative integer is its 64-bit
two's-complement pattern (R7, R57). -/
def asmOperand : Option Int → Operand
  | none => 0
  | some x => BitVec.ofInt 64 x

/-- The OPND value of a name operand; a text stands for the tag the host has mapped it to (R57, R32). -/
def asmName (tagOf : String → Operand) : Option AsmName → Operand
  | none => 0
  | some (.num x) => BitVec.ofInt 64 x
  | some (.text t) => tagOf t

/-- The CONV code of a convention operand (R57). -/
def asmConv : AsmConv → ConvCode
  | .odd => 0b01
  | .even => 0b10
  | .raw n => BitVec.ofNat 2 n

/-- The command and the OPND value that a line spells, whatever the size of its integers. -/
def asmFields (tagOf : String → Operand) : AsmLine → Instr × Operand
  | .fcfg sa l z name =>
    (.fcfg (Fin.ofNat numSlots sa) (BitVec.ofNat 6 l) (BitVec.ofNat 6 z), asmName tagOf name)
  | .ffoot sa => (.ffoot (Fin.ofNat numSlots sa), 0)
  | .funpack sa w => (.funpack (Fin.ofNat numSlots sa), asmOperand w)
  | .fpack sa v => (.fpack (Fin.ofNat numSlots sa), asmOperand v)
  | .feq sa sb => (.feq (Fin.ofNat numSlots sa) (Fin.ofNat numSlots sb), 0)
  | .fdesc sa => (.fdesc (Fin.ofNat numSlots sa), 0)
  | .pcfg c => (.pcfg (asmConv c), 0)
  | .pset p => (.pset, asmOperand p)
  | .pget => (.pget, 0)
  | .ppack => (.ppack, 0)
  | .pcomp c p => (.pcomp (asmConv c), asmOperand p)

/-- The assembler: a well-formed line gives exactly one command and its OPND (R57, R61); any other line
spells no command. -/
def assemble (tagOf : String → Operand) (a : AsmLine) : Option (Instr × Operand) :=
  if a.wellFormed then some (asmFields tagOf a) else none

end Sys2Proof
end

