-- ==== Sys2Proof/Machine/State.lean ====
section
/-! DEFINITION. The state of the block (10_state.md R13, R19, R24, R34), the port inputs (R23), the host's
remaining events (R28, R31, R116), the reset state (R29), and the reasons a step could stop. -/

namespace Sys2Proof.Machine

/-- One field-descriptor slot `FD[s]` (R13). -/
structure Slot where
  /-- The slot holds a constructed Field. -/
  valid : Bool
  /-- The 1-based position of the field's least significant bit. -/
  lsb : UInt6
  /-- The field's width in bits. -/
  size : UInt6
  /-- The field's identifier, an opaque tag. -/
  name : Operand
  /-- The footprint, computed once by FCFG (R15). -/
  mask : Word
  deriving DecidableEq, Repr

/-- The parity unit `P` (R19). -/
structure Par where
  /-- A ParityBit has been constructed. -/
  pvalid : Bool
  /-- The convention: `01` odd, `10` even, `00` only while `pvalid` is 0. -/
  conv : ConvCode
  /-- A payload has been set since the construction. -/
  dvalid : Bool
  /-- The payload that PSET stored last. -/
  pdata : Operand
  deriving DecidableEq, Repr

/-- The response record (R24). -/
structure Resp where
  /-- `STATUS`: 0 is OK, else an error code of R96. -/
  status : BitVec 4
  /-- `RESULT`. -/
  result : Operand
  /-- `AUX`. -/
  aux : Operand
  /-- `ENAME`. -/
  ename : Operand
  /-- `EBOUND`: a signed value, held as its two's-complement pattern (`u64` of R7). -/
  ebound : Operand
  /-- `EVALUE`: a signed value, held as its two's-complement pattern (`u64` of R7). -/
  evalue : Operand
  deriving DecidableEq, Repr

/-- What the host does to the block in one step: present one command (R31) or assert reset (R116). -/
inductive HostEvent where
  /-- The host drives CMD and OPND, and the block performs the command. -/
  | command (cmd : Word) (opnd : Operand)
  /-- The host asserts the reset input between two commands. -/
  | reset
  deriving DecidableEq, Repr

/-- The state of R34, with the port inputs of R23 and the host's remaining events. -/
structure State where
  /-- The field-descriptor file `FD[0..15]` (R13). -/
  fd : Vector Slot numSlots
  /-- The parity unit (R19). -/
  par : Par
  /-- The response registers (R24). -/
  resp : Resp
  /-- The port input `CMD`, driven by the host and never written by the block (R23). -/
  cmd : Word
  /-- The port input `OPND`, driven by the host and never written by the block (R23). -/
  opnd : Operand
  /-- The model's own field: the events the host has still to present, first one first (R28, R129).
  It stands outside the block, which holds one command at a time (R31). Log entry 2. -/
  program : List HostEvent
  deriving DecidableEq, Repr

/-- Why a step would stop the machine: no reason exists. Every command completes in one step with a response,
whatever the word and the operand (R58, R128), and an error is a response (R104). Nothing raises a fault. -/
inductive Fault
  deriving DecidableEq, Repr

/-- Why a step would give an instruction no meaning. -/
inductive Refusal where
  /-- Raised by an arm of `exec` for an instruction that the model has not reached; safe. No arm does. -/
  | notModelled (mnemonic : String)
  deriving DecidableEq, Repr

/-- A step's outcome in this machine. -/
abbrev Result := Host.Outcome State Fault Refusal

/-- A slot that holds no Field: every field zero (R18, R29). -/
def Slot.empty : Slot := ⟨false, 0, 0, 0, 0⟩

/-- The parity unit before its construction (R20, R29). -/
def Par.empty : Par := ⟨false, 0, false, 0⟩

/-- The response record of zeros (R29). -/
def Resp.zero : Resp := ⟨0, 0, 0, 0, 0, 0⟩

/-- The machine right after reset (R29), with nothing presented. The port inputs are not state of the block
and have no reset value in R29. DESIGN CHOICE: they are zero, log entry 1; unsafe. -/
def State.reset : State where
  fd := Vector.replicate numSlots Slot.empty
  par := Par.empty
  resp := Resp.zero
  cmd := 0
  opnd := 0
  program := []

end Sys2Proof.Machine
end

