-- ==== Sys2Proof/Machine/Flags.lean ====
section
/-! DEFINITION. STATUS, the only condition code of the block (10_state.md R26): the error taxonomy of
60_exceptions.md R96 and its codes. The block has no arithmetic flag. -/

namespace Sys2Proof.Machine

/-- The error kinds of R96. Only RangeError carries information (R100): the field's name, the violated
bound and the offending value. -/
inductive ErrorKind where
  /-- Raised by FCFG. -/
  | structureError
  /-- Raised by FUNPACK and FPACK. -/
  | rangeError (ename : Operand) (ebound evalue : Int)
  /-- Raised by PCFG and PCOMP. -/
  | conventionError
  /-- Raised by PGET and PPACK. -/
  | noDataError
  /-- Raised by FFOOT, FUNPACK, FPACK, FDESC, PSET, PGET and PPACK. -/
  | noInstanceError
  /-- Raised at decode. -/
  | illegalCommand
  deriving DecidableEq, Repr

/-- The STATUS code of a success (R96). -/
def statusOk : BitVec 4 := 0

/-- `code(E)` (R96, R99). -/
def errorCode : ErrorKind → BitVec 4
  | .structureError => 1
  | .rangeError _ _ _ => 2
  | .conventionError => 3
  | .noDataError => 4
  | .noInstanceError => 5
  | .illegalCommand => 6

end Sys2Proof.Machine
end

