-- ==== Sys2Proof/Config.lean ====
section
/-! DEFINITION. The free values of the model: what the spec's pseudocode leaves without a value because its
own invariants exclude the case (70_reset_and_hazards.md R130). Nothing constrains them. -/

namespace Sys2Proof

/-- The RESULT of FUNPACK or FPACK on a slot that is marked valid but breaks the slot invariant of R14
(given its lsb, its size and OPND). R8 says that no shift count is negative and R75 that no result
exceeds 32 bits; both rest on R14. No run from reset reaches such a slot.
DESIGN CHOICE: a free value, log entry 4; safe. -/
opaque Config.brokenSlot : UInt6 → UInt6 → Operand → Operand

/-- `PBIT` of a convention code that is neither `01` nor `10`. R81: "never applied to `c` = `00` or `11`".
No run from reset reaches it. DESIGN CHOICE: a free value, log entry 5; safe. -/
opaque Config.brokenParity : Operand → ConvCode → Word

end Sys2Proof
end

