-- ==== Sys2Proof/Machine/Operands.lean ====
section
/-! DEFINITION. What the commands compute from their operands: the reading of OPND, the mask, extraction and
insertion (10_state.md R15, 40_field.md R63 to R66), field equality (R69), the attribute word (R72) and the
parity function (41_parity.md R81). Values are mathematical integers, narrowed at the end (R7). -/

namespace Sys2Proof.Machine

/-- `s64(OPND)` (R7). -/
def s64 (p : Operand) : Int := p.toInt

/-- `u64(x)` (R7). -/
def u64 (x : Int) : Operand := BitVec.ofInt 64 x

/-- The largest word, `0xFFFFFFFF` (R5, R65). -/
def maxWord : Int := 0xFFFFFFFF

/-! ## Fields -/

/-- The document's two checks on a field: `lsb >= 1` and `lsb + size <= 33` (R14, R63). -/
def legalField (lsb size : UInt6) : Bool := decide (1 ≤ lsb.toNat ∧ lsb.toNat + size.toNat ≤ 33)

/-- The mask of a field, a 32-bit result (R15). -/
def fieldMask (lsb size : UInt6) : Word :=
  BitVec.ofNat 32 (((1 <<< size.toNat) - 1) <<< (lsb.toNat - 1))

/-- `FPACK`'s upper bound `2^size - 1` (R66). -/
def packBound (f : Slot) : Int := 2 ^ f.size.toNat - 1

/-- `zext_64((w & mask) >> (lsb - 1))` for a legal word `w` (R65). On a slot that breaks R14 the result is
a free value (R130; log entry 4). -/
def extractField (f : Slot) (w : Operand) : Operand :=
  if legalField f.lsb f.size then
    BitVec.ofNat 64 ((w.toNat &&& f.mask.toNat) >>> (f.lsb.toNat - 1))
  else Config.brokenSlot f.lsb f.size w

/-- `zext_64(v << (lsb - 1))` for a value `v` in range (R66). On a slot that breaks R14 the result is
a free value (R130; log entry 4). -/
def insertField (f : Slot) (v : Operand) : Operand :=
  if legalField f.lsb f.size then
    BitVec.ofNat 64 (v.toNat <<< (f.lsb.toNat - 1))
  else Config.brokenSlot f.lsb f.size v

/-- Equality of two Fields: both exist, and lsb, size and name agree; the mask is not compared (R69, R71). -/
def fieldsEqual (a b : Slot) : Bool :=
  a.valid && b.valid && a.lsb == b.lsb && a.size == b.size && a.name == b.name

/-- FDESC's second result, `(size << 8) | lsb` (R72). -/
def descAux (f : Slot) : Operand := BitVec.ofNat 64 ((f.size.toNat <<< 8) ||| f.lsb.toNat)

/-! ## Parity -/

/-- The number of one-bits among the `n` lowest bits of `v`: `popcount(v[n-1:0])` (R8). -/
def popcountLow : Nat → Nat → Nat
  | 0, _ => 0
  | n + 1, v => popcountLow n v + (v.testBit n).toNat

/-- The XOR of the `n` lowest bits of `v`: `xorreduce(v[n-1:0])` (R8, R82). -/
def xorLow : Nat → Nat → Bool
  | 0, _ => false
  | n + 1, v => xor (xorLow n v) (v.testBit n)

/-- The value of bit 32, `1 << 31` (R5, R81). -/
def parityBit : Word := 0x80000000

/-- A convention code that names a convention: `01` odd or `10` even (R50, R83). -/
def legalConv (c : ConvCode) : Bool := c == 0b01 || c == 0b10

/-- `PBIT(p, c)`: the count is over document bits 1..31 only (R81). A code that names no convention never
reaches it in a run, and gets a free value (log entry 5). -/
def pbit (p : Operand) (c : ConvCode) : Word :=
  let n := popcountLow 31 p.toNat
  if c = 0b01 then (if n % 2 = 0 then parityBit else 0)
  else if c = 0b10 then (if n % 2 = 1 then parityBit else 0)
  else Config.brokenParity p c

end Sys2Proof.Machine
end

