-- ==== Sys2Proof/Machine/Ops.lean ====
section
/-! DEFINITION. The named operations over the state: the slot file, the parity unit, the port, the response
record (10_state.md R9, R25), raising an error (60_exceptions.md R99) and the reset event (R116).
The block has no memory (20_memory.md R36), so there is no memory operation. -/

namespace Sys2Proof.Machine

/-- `FD[k]` (R9, R13). -/
def State.slot (s : State) (k : SlotIx) : Slot := s.fd[k]

/-- Writes all five fields of `FD[k]` together (R16, R17). -/
def State.setSlot (s : State) (k : SlotIx) (f : Slot) : State := { s with fd := s.fd.set k f }

/-- Writes the parity unit (R9). -/
def State.setPar (s : State) (p : Par) : State := { s with par := p }

/-- Writes the six response registers at once (R25). -/
def State.setResp (s : State) (r : Resp) : State := { s with resp := r }

/-- The host drives the port inputs (R23, R31). -/
def State.drive (s : State) (cmd : Word) (opnd : Operand) : State := { s with cmd := cmd, opnd := opnd }

/-- Sets the events the host has still to present. -/
def State.setProgram (s : State) (es : List HostEvent) : State := { s with program := es }

/-- `respond(OK, result, aux)`; arguments left out are 0 (R25). The command ends in a next state. -/
def respondOk (s : State) (result : Operand := 0) (aux : Operand := 0) : Result :=
  .next (s.setResp ⟨statusOk, result, aux, 0, 0, 0⟩)

/-- The response record of an error: RESULT and AUX are 0, and only RangeError fills ENAME, EBOUND and
EVALUE (R99, R100). -/
def errorResp : ErrorKind → Resp
  | .rangeError ename ebound evalue =>
    ⟨errorCode (.rangeError ename ebound evalue), 0, 0, ename, u64 ebound, u64 evalue⟩
  | e => ⟨errorCode e, 0, 0, 0, 0, 0⟩

/-- `raise E`: the block's only exception mechanism. It writes the response record and ends the command; it
transfers no control, saves no other state and changes no mode (R99, R104). There is no return command: after
an error the block accepts the next command at once (R105). -/
def raise (e : ErrorKind) (s : State) : Result := .next (s.setResp (errorResp e))

/-- The reset event: every piece of the block's state takes its value of R29 in one step (R116). The port
inputs and the events the host has still to present are not state of the block and stay (log entry 6). -/
def applyReset (s : State) : State :=
  { s with fd := State.reset.fd, par := State.reset.par, resp := State.reset.resp }

end Sys2Proof.Machine
end

