-- ==== Sys2Proof/Machine/Field.lean ====
section
/-! DEFINITION. The six Field commands of 40_field.md: FCFG, FFOOT, FUNPACK, FPACK, FEQ, FDESC. -/

namespace Sys2Proof.Machine

/-- FCFG (R63). A refused pair writes no slot; a legal one replaces the slot whole (R17). -/
def execFcfg (sa : SlotIx) (lsb size : UInt6) (s : State) : Result :=
  if legalField lsb size then
    respondOk (s.setSlot sa ⟨true, lsb, size, s.opnd, fieldMask lsb size⟩)
  else raise .structureError s

/-- FFOOT (R64). -/
def execFfoot (sa : SlotIx) (s : State) : Result :=
  if (s.slot sa).valid then respondOk s (s.slot sa).mask.zext
  else raise .noInstanceError s

/-- FUNPACK (R65). -/
def execFunpack (sa : SlotIx) (s : State) : Result :=
  if (s.slot sa).valid then
    if s64 s.opnd < 0 then raise (.rangeError (s.slot sa).name 0 (s64 s.opnd)) s
    else if maxWord < s64 s.opnd then raise (.rangeError (s.slot sa).name maxWord (s64 s.opnd)) s
    else respondOk s (extractField (s.slot sa) s.opnd)
  else raise .noInstanceError s

/-- FPACK (R66). The two bounds are checked independently, the lower one first (R67, R101). -/
def execFpack (sa : SlotIx) (s : State) : Result :=
  if (s.slot sa).valid then
    if s64 s.opnd < 0 then raise (.rangeError (s.slot sa).name 0 (s64 s.opnd)) s
    else if packBound (s.slot sa) < s64 s.opnd then
      raise (.rangeError (s.slot sa).name (packBound (s.slot sa)) (s64 s.opnd)) s
    else respondOk s (insertField (s.slot sa) s.opnd)
  else raise .noInstanceError s

/-- FEQ (R69): always OK; an unconfigured slot equals nothing (R71). -/
def execFeq (sa sb : SlotIx) (s : State) : Result :=
  respondOk s (if fieldsEqual (s.slot sa) (s.slot sb) then 1 else 0)

/-- FDESC (R72). -/
def execFdesc (sa : SlotIx) (s : State) : Result :=
  if (s.slot sa).valid then respondOk s (s.slot sa).name (descAux (s.slot sa))
  else raise .noInstanceError s

end Sys2Proof.Machine
end

