-- ==== Sys2Proof/Machine/Parity.lean ====
section
/-! DEFINITION. The five Parity commands of 41_parity.md: PCFG, PSET, PGET, PPACK, PCOMP. -/

namespace Sys2Proof.Machine

/-- PCFG (R83). A successful one starts a new instance without data; a failed one changes nothing in `P`. -/
def execPcfg (c : ConvCode) (s : State) : Result :=
  if legalConv c then respondOk (s.setPar ⟨true, c, false, 0⟩)
  else raise .conventionError s

/-- PSET (R84): the whole 64-bit pattern is stored. -/
def execPset (s : State) : Result :=
  if s.par.pvalid then respondOk (s.setPar ⟨s.par.pvalid, s.par.conv, true, s.opnd⟩)
  else raise .noInstanceError s

/-- PGET (R85): the payload as it was stored (R91). -/
def execPget (s : State) : Result :=
  if s.par.pvalid then
    if s.par.dvalid then respondOk s s.par.pdata
    else raise .noDataError s
  else raise .noInstanceError s

/-- PPACK (R86). -/
def execPpack (s : State) : Result :=
  if s.par.pvalid then
    if s.par.dvalid then respondOk s (pbit s.par.pdata s.par.conv).zext
    else raise .noDataError s
  else raise .noInstanceError s

/-- PCOMP (R87): it neither reads nor writes the parity unit. -/
def execPcomp (c : ConvCode) (s : State) : Result :=
  if legalConv c then respondOk s (pbit s.opnd c).zext
  else raise .conventionError s

end Sys2Proof.Machine
end

