-- ==== Sys2Proof/Machine/Dispatch.lean ====
section
/-! DEFINITION. The dispatch of 30_encoding.md R58 on a decoded command: one arm per constructor. -/

namespace Sys2Proof.Machine

-- The effect of one decoded command on the state whose port inputs the host has driven (R58).
def exec (i : Instr) (s : State) : Host.Outcome State Fault Refusal :=
  match i with
  -- Field commands, 40_field.md
  | .fcfg sa lsb size => Sys2Proof.Machine.execFcfg sa lsb size s
  | .ffoot sa => Sys2Proof.Machine.execFfoot sa s
  | .funpack sa => Sys2Proof.Machine.execFunpack sa s
  | .fpack sa => Sys2Proof.Machine.execFpack sa s
  | .feq sa sb => Sys2Proof.Machine.execFeq sa sb s
  | .fdesc sa => Sys2Proof.Machine.execFdesc sa s
  -- Parity commands, 41_parity.md
  | .pcfg conv => Sys2Proof.Machine.execPcfg conv s
  | .pset => Sys2Proof.Machine.execPset s
  | .pget => Sys2Proof.Machine.execPget s
  | .ppack => Sys2Proof.Machine.execPpack s
  | .pcomp conv => Sys2Proof.Machine.execPcomp conv s

end Sys2Proof.Machine
end

