-- ==== Sys2Proof/Machine/Port.lean ====
section
/-! DEFINITION. The command port: `Step` of 30_encoding.md R58 on the driven inputs, the host's events
(10_state.md R31, 70_reset_and_hazards.md R116), and what a run shows (R33, R129). -/

namespace Sys2Proof.Machine

/-- `Step` of R58 on the command that stands at the port: decode before any other check, IllegalCommand for
a word that spells no command (R54, R101). -/
def performPort (s : State) : Result :=
  match decode s.cmd with
  | .ok i => exec i s
  | .error _ => raise .illegalCommand s

/-- One host event: a transaction (R31), whose response the next state holds, or a reset (R116). -/
def deliver (e : HostEvent) (s : State) : Result :=
  match e with
  | .command cmd opnd => performPort (s.drive cmd opnd)
  | .reset => .next (applyReset s)

/-- One step of the machine: the host's next event is delivered. With no event left the block keeps its
state (R31, R115). DEDUCED, log entry 2; safe. -/
def nextEvent (s : State) : Result :=
  match s.program with
  | [] => .next s
  | e :: es => deliver e (s.setProgram es)

/-- The response records that one delivered event adds to what the host observes: one for a command, none
for a reset (R33). -/
def responsesOf (e : HostEvent) (t : State) : List Resp :=
  match e with
  | .command _ _ => [t.resp]
  | .reset => []

/-- The observation of a run: the responses in order, and the final state (R33, R129). -/
def observe : List HostEvent → State → List Resp × State
  | [], s => ([], s)
  | e :: es, s =>
    match deliver e s with
    | .next t => (responsesOf e t ++ (observe es t).1, (observe es t).2)
    | .fault _ => ([], s)
    | .refused _ => ([], s)

/-- Places a command, given as the `nbits` low bits of `w`, as the next one the host presents, with the
operand that stands at the port (log entry 3). -/
def placeCommand (s : State) (nbits w : Nat) : State :=
  s.setProgram (.command (BitVec.ofNat 32 (w % 2 ^ nbits)) s.opnd :: s.program)

end Sys2Proof.Machine
end

