-- ==== Sys2Proof/Machine/Step.lean ====
section
/-! DEFINITION. The step of the machine. -/

namespace Sys2Proof.Machine

/-- One step: the host's next event (R31, R116). -/
def step (s : State) : Host.Outcome State Fault Refusal := nextEvent s

/-- The state with one command placed where the next step takes its command from. -/
def State.withFetchWord (s : State) (nbits w : Nat) : State := placeCommand s nbits w

end Sys2Proof.Machine
end

