-- ==== Sys2Proof/Machine/HostSide.lean ====
section
/-! DEFINITION. The host's side of the port: the duties of 10_state.md R32 and the sequences BUILD and PARSE
of 30_encoding.md R62. They are the host's procedures over the commands, not commands of the block. -/

namespace Sys2Proof.Machine

/-! ## Duties of R32 -/

/-- The convention argument of the document's `ParityBit(convention)`: a string, or any non-string. -/
inductive ConvArg where
  | text (t : String)
  | nonString
  deriving DecidableEq, Repr

/-- The host's mapping of a convention argument to CONV: exactly "odd" to `01`, exactly "even" to `10`, and
every other argument to `00` (R32; 90_conflicts.md C1). -/
def convCodeOf : ConvArg → ConvCode
  | .text t => if t = "odd" then 0b01 else if t = "even" then 0b10 else 0b00
  | .nonString => 0b00

/-- What the host reports for an integer that the port cannot carry (R32). -/
structure RangeReport where
  ename : Operand
  ebound : Int
  evalue : Int
  deriving DecidableEq, Repr

/-- The report for an integer outside `[-2^63, 2^63 - 1]`, with the name, bound and value the block would
give, where `up` is the upper bound of the command; none where the integer can be presented (R32, I6). -/
def hostReport (f : Slot) (up x : Int) : Option RangeReport :=
  if presentable x then none else some ⟨f.name, if x < 0 then 0 else up, x⟩

/-- `FUNPACK`'s report (R32, R65). -/
def hostUnpackReport (f : Slot) (x : Int) : Option RangeReport := hostReport f maxWord x

/-- `FPACK`'s report (R32, R66). -/
def hostPackReport (f : Slot) (x : Int) : Option RangeReport := hostReport f (packBound f) x

/-! ## BUILD and PARSE (R62) -/

/-- One transaction whose STATUS the host checks: the state after it if it reported OK (R31, R126). R106 leaves
to the host what it does after an error. DESIGN CHOICE: it gives up with no value, log entry 17; unsafe. -/
def ask (i : Instr) (opnd : Operand) (s : State) : Option State :=
  match deliver (.command (encode i) opnd) s with
  | .next t => if t.resp.status = statusOk then some t else none
  | .fault _ => none
  | .refused _ => none

/-- BUILD's first loop: FPACK every part and OR the results into `w`; each must report OK (R62). That the host
gives up where one does not is a DESIGN CHOICE, log entry 17; unsafe. -/
def packParts : List (SlotIx × Operand) → Operand → State → Option (Operand × State)
  | [], w, s => some (w, s)
  | (k, v) :: rest, w, s =>
    match ask (.fpack k) v s with
    | some t => packParts rest (w ||| t.resp.result) t
    | none => none

/-- BUILD's last line: the parity word of `w` by `PCFG c; PSET #w; PPACK` (R62). R62 asks for no OK status here.
DESIGN CHOICE: the host gives up where one of the three fails, log entry 17; unsafe. -/
def parityOf (c : ConvCode) (w : Operand) (s : State) : Option State :=
  ((ask (.pcfg c) 0 s).bind (ask .pset w)).bind (ask .ppack 0)

/-- BUILD: the word of the parts with its parity bit (R62); none where a command fails (log entry 17). -/
def build (parts : List (SlotIx × Operand)) (c : ConvCode) (s : State) : Option (Operand × State) :=
  match packParts parts 0 s with
  | some (w, t) => (parityOf c w t).map fun u => (w ||| u.resp.result, u)
  | none => none

/-- PARSE: FUNPACK every slot from `w` (R62). R62 asks for no OK status here. DESIGN CHOICE: the host gives up
where an FUNPACK fails, log entry 17; unsafe. -/
def parse : List SlotIx → Operand → State → Option (List Operand × State)
  | [], _, s => some ([], s)
  | k :: rest, w, s =>
    match ask (.funpack k) w s with
    | some t => (parse rest w t).map fun r => (t.resp.result :: r.1, r.2)
    | none => none

end Sys2Proof.Machine
end

