-- ==== Sys2Proof/Safety.lean ====
section
/-! DEFINITION. The invariants of the spec and the terms the statements use: the slot and parity-unit
invariants (10_state.md R14, R15, R18, R20), the form of a response (R24, R96, R99), illegal words (R54), and
the conditions on which a command reports what. -/

namespace Sys2Proof.Machine

/-! ## Invariants -/

/-- A valid slot holds a legal field with its own mask (R14, R15); any other slot is all zero (R18). -/
abbrev Slot.Inv (f : Slot) : Prop :=
  (f.valid = true → 1 ≤ f.lsb.toNat ∧ f.lsb.toNat + f.size.toNat ≤ 33 ∧
    f.mask = fieldMask f.lsb f.size) ∧
  (f.valid = false → f = Slot.empty)

/-- The three lines of R20. -/
abbrev Par.Inv (p : Par) : Prop :=
  (p.pvalid = false → p.conv = 0b00 ∧ p.dvalid = false ∧ p.pdata = 0) ∧
  (p.pvalid = true → p.conv = 0b01 ∨ p.conv = 0b10) ∧
  (p.dvalid = false → p.pdata = 0)

/-- The start-state premise of R130: the slot invariants and the parity-unit invariant. -/
abbrev State.Inv (s : State) : Prop := (∀ k : SlotIx, (s.slot k).Inv) ∧ s.par.Inv

/-- The form of every response record: codes 7 to 15 are never written (R96), RESULT and AUX are 0 on an
error (R99), and only RangeError fills ENAME, EBOUND and EVALUE (R100). -/
abbrev Resp.Inv (r : Resp) : Prop :=
  r.status.toNat ≤ 6 ∧
  (r.status ≠ 0 → r.result = 0 ∧ r.aux = 0) ∧
  (r.status ≠ 2 → r.ename = 0 ∧ r.ebound = 0 ∧ r.evalue = 0)

/-! ## Words -/

/-- The illegal words of R54: an unassigned opcode, or a non-zero field that R53 lists as unused. -/
abbrev IllegalWord (w : Word) : Prop :=
  cmdOp w = 0x0 ∨ 0xC ≤ (cmdOp w).toNat ∨ cmdRsv w ≠ 0 ∨
  (cmdConv w ≠ 0 ∧ cmdOp w ≠ 0x7 ∧ cmdOp w ≠ 0xB) ∨
  ((cmdLsb w ≠ 0 ∨ cmdSize w ≠ 0) ∧ cmdOp w ≠ 0x1) ∨
  (cmdSb w ≠ 0 ∧ cmdOp w ≠ 0x5) ∨
  (cmdSa w ≠ 0 ∧ 0x7 ≤ (cmdOp w).toNat)

/-! ## Conditions -/

/-- The slot or the parity unit that the command needs is not constructed (R96 code 5, R101). -/
def MissingInstance (i : Instr) (s : State) : Prop :=
  match i with
  | .ffoot k | .funpack k | .fpack k | .fdesc k => (s.slot k).valid = false
  | .pset | .pget | .ppack => s.par.pvalid = false
  | .fcfg _ _ _ | .feq _ _ | .pcfg _ | .pcomp _ => False

/-- PGET or PPACK without a payload (R96 code 4, R101). -/
def MissingData (i : Instr) (s : State) : Prop :=
  match i with
  | .pget | .ppack => s.par.dvalid = false
  | .fcfg _ _ _ | .ffoot _ | .funpack _ | .fpack _ | .feq _ _ | .fdesc _ | .pcfg _ | .pset | .pcomp _ => False

/-- The command's own check fails, with the code of its error (R96 codes 1 to 3, R101). -/
def OwnCheckFails (i : Instr) (s : State) : Option (BitVec 4) :=
  match i with
  | .fcfg _ l z => if 1 ≤ l.toNat ∧ l.toNat + z.toNat ≤ 33 then none else some 1
  | .funpack _ => if 0 ≤ s.opnd.toInt ∧ s.opnd.toInt ≤ 0xFFFFFFFF then none else some 2
  | .fpack k => if 0 ≤ s.opnd.toInt ∧ s.opnd.toInt ≤ 2 ^ (s.slot k).size.toNat - 1 then none else some 2
  | .pcfg c | .pcomp c => if c = 0b01 ∨ c = 0b10 then none else some 3
  | .ffoot _ | .feq _ _ | .fdesc _ | .pset | .pget | .ppack => none

/-- The number of ones among the `n` lowest bits of a 64-bit pattern, counted bit by bit. -/
abbrev onesBelow (n : Nat) (p : Operand) : Nat := ((List.range n).filter fun j => p.getLsbD j).length

end Sys2Proof.Machine

namespace Sys2Proof

/-- The commands that change no slot and no parity-unit field, whatever they report (R16, R21). -/
def Instr.readOnly : Instr → Bool
  | .ffoot _ | .funpack _ | .fpack _ | .feq _ _ | .fdesc _ | .pget | .ppack | .pcomp _ => true
  | .fcfg _ _ _ | .pcfg _ | .pset => false

/-- The commands of the Field family (R53). -/
def Instr.isField : Instr → Bool
  | .fcfg _ _ _ | .ffoot _ | .funpack _ | .fpack _ | .feq _ _ | .fdesc _ => true
  | .pcfg _ | .pset | .pget | .ppack | .pcomp _ => false

end Sys2Proof
end

