-- ==== Sys2Proof/Certificates/Slice0/Obligations.lean ====
section
/-! DEFINITION. The statements for the provers. Each docstring names the rule of spec/ that the statement
formalises. Command words are built by `encode`, response records are written in the order STATUS, RESULT,
AUX, ENAME, EBOUND, EVALUE of R24. -/

open Sys2Proof Sys2Proof.Machine

/-! ## Encoding, 30_encoding.md -/

/-- Words written out in the spec (30_encoding.md section 4 and the examples of 40 and 41) decode to the
commands they stand for, one of every command, and some words of vector V1 do not decode (R54). Which of the
decoder's two reasons a refused word gets, also where both cases of R54 hold, is the model's choice (log entry 16):
the spec gives both the one error IllegalCommand. -/
def Obligations.DecodesTheSpecsExampleWords : Prop :=
  decode 0x00201001 = .ok (.fcfg 0 1 8) ∧ decode 0x004CB021 = .ok (.fcfg 2 11 19) ∧
  decode 0x000210F1 = .ok (.fcfg 15 33 0) ∧ decode 0x00000052 = .ok (.ffoot 5) ∧
  decode 0x00000053 = .ok (.funpack 5) ∧ decode 0x00000024 = .ok (.fpack 2) ∧
  decode 0x00000315 = .ok (.feq 1 3) ∧ decode 0x00000056 = .ok (.fdesc 5) ∧
  decode 0x01000007 = .ok (.pcfg 0b01) ∧ decode 0x02000007 = .ok (.pcfg 0b10) ∧
  decode 0x00000008 = .ok .pset ∧ decode 0x00000009 = .ok .pget ∧ decode 0x0000000A = .ok .ppack ∧
  decode 0x0200000B = .ok (.pcomp 0b10) ∧
  decode 0x00000000 = .error (.unassignedOp 0x0) ∧ decode 0xFFFFFFFF = .error (.unassignedOp 0xF) ∧
  decode 0x04000008 = .error (.unusedField "PSET") ∧ decode 0x00001005 = .error (.unusedField "FEQ") ∧
  decode 0x01201001 = .error (.unusedField "FCFG")

/-- Every command, with every operand, is what its own word decodes to (R50, R53). -/
def Obligations.DecodeOfEncodeIsTheInstruction : Prop :=
  ∀ i : Instr, decode (encode i) = .ok i

/-- A word that decodes is the word of the command it decodes to: each legal word has one meaning and no
command has two words (R53, R54). -/
def Obligations.EncodeOfDecodeIsTheWord : Prop :=
  ∀ (w : Word) (i : Instr), decode w = .ok i → encode i = w

/-- R50: the seven fields, at the places of the layout, cover all 32 bits exactly once; R50's masks. -/
def Obligations.FieldsCoverTheCommandWordOnce : Prop :=
  ∀ w : Word,
    (w &&& 0x0000000F).toNat = (cmdOp w).toNat ∧
    (w &&& 0x000000F0).toNat = (cmdSa w).val * 2 ^ 4 ∧
    (w &&& 0x00000F00).toNat = (cmdSb w).val * 2 ^ 8 ∧
    (w &&& 0x0003F000).toNat = (cmdLsb w).toNat * 2 ^ 12 ∧
    (w &&& 0x00FC0000).toNat = (cmdSize w).toNat * 2 ^ 18 ∧
    (w &&& 0x03000000).toNat = (cmdConv w).toNat * 2 ^ 24 ∧
    (w &&& 0xFC000000).toNat = (cmdRsv w).toNat * 2 ^ 26 ∧
    w.toNat = (cmdOp w).toNat + (cmdSa w).val * 2 ^ 4 + (cmdSb w).val * 2 ^ 8 + (cmdLsb w).toNat * 2 ^ 12 +
      (cmdSize w).toNat * 2 ^ 18 + (cmdConv w).toNat * 2 ^ 24 + (cmdRsv w).toNat * 2 ^ 26

/-- R53: a word is command M exactly when `CMD & mask(M) = match(M)`, with the values of R53's table. -/
def Obligations.WordIsACommandExactlyWhenItsMaskMatches : Prop :=
  ∀ w : Word,
    ((∃ k l z, decode w = .ok (.fcfg k l z)) ↔ w &&& 0xFF000F0F = 0x00000001) ∧
    ((∃ k, decode w = .ok (.ffoot k)) ↔ w &&& 0xFFFFFF0F = 0x00000002) ∧
    ((∃ k, decode w = .ok (.funpack k)) ↔ w &&& 0xFFFFFF0F = 0x00000003) ∧
    ((∃ k, decode w = .ok (.fpack k)) ↔ w &&& 0xFFFFFF0F = 0x00000004) ∧
    ((∃ k j, decode w = .ok (.feq k j)) ↔ w &&& 0xFFFFF00F = 0x00000005) ∧
    ((∃ k, decode w = .ok (.fdesc k)) ↔ w &&& 0xFFFFFF0F = 0x00000006) ∧
    ((∃ c, decode w = .ok (.pcfg c)) ↔ w &&& 0xFCFFFFFF = 0x00000007) ∧
    (decode w = .ok .pset ↔ w &&& 0xFFFFFFFF = 0x00000008) ∧
    (decode w = .ok .pget ↔ w &&& 0xFFFFFFFF = 0x00000009) ∧
    (decode w = .ok .ppack ↔ w &&& 0xFFFFFFFF = 0x0000000A) ∧
    ((∃ c, decode w = .ok (.pcomp c)) ↔ w &&& 0xFCFFFFFF = 0x0000000B)

/-- R54: a word with an unassigned opcode or a non-zero unused field fails with IllegalCommand and changes no
state except the response; every other word is a legal encoding. -/
def Obligations.IllegalWordsFailAndAllOthersAreLegal : Prop :=
  ∀ s : State,
    (IllegalWord s.cmd → performPort s = .next { s with resp := ⟨6, 0, 0, 0, 0, 0⟩ }) ∧
    (¬ IllegalWord s.cmd → ∃ i, decode s.cmd = .ok i)

/-! ## The step, 10_state.md R31, 70_reset_and_hazards.md R116 -/

/-- A step runs the decoded command: the host's next event leaves the program, CMD and OPND are driven, and
the command at the port is performed; a word that does not decode raises IllegalCommand (R31, R58). That the
events stand in the list `program` is the model's choice (log entry 2). -/
def Obligations.StepRunsTheDecodedCommand : Prop :=
  ∀ (s : State) (w : Word) (o : Operand) (es : List HostEvent), s.program = .command w o :: es →
    (∀ i, decode w = .ok i → step s = exec i { s with cmd := w, opnd := o, program := es }) ∧
    (∀ e, decode w = .error e →
      step s = .next { s with cmd := w, opnd := o, program := es, resp := ⟨6, 0, 0, 0, 0, 0⟩ })

/-- A reset event puts every piece of the block's state into its reset value in one step (R116). That the port
inputs and the remaining events stay is the model's choice (log entry 6). -/
def Obligations.ResetEventRestoresTheResetState : Prop :=
  ∀ (s : State) (es : List HostEvent), s.program = .reset :: es →
    step s = .next { State.reset with cmd := s.cmd, opnd := s.opnd, program := es }

/-- With no event left the step keeps the state: the model's choice (log entry 2), which rests on R115's
"Its state is kept as long as it is not reset". -/
def Obligations.StepWithoutAnEventKeepsTheState : Prop :=
  ∀ s : State, s.program = [] → step s = .next s

/-- R29: the reset value of every piece of state. -/
def Obligations.ResetHoldsTheSpecsValues : Prop :=
  (∀ k : SlotIx, (State.reset.slot k).valid = false ∧ (State.reset.slot k).lsb = 0 ∧
    (State.reset.slot k).size = 0 ∧ (State.reset.slot k).name = 0 ∧ (State.reset.slot k).mask = 0) ∧
  State.reset.par = ⟨false, 0b00, false, 0⟩ ∧ State.reset.resp = ⟨0, 0, 0, 0, 0, 0⟩

/-- No step hangs, faults or is refused, and a command's step ends in a response that the response before it
has no part in (R128). R128 speaks of commands alone: that a step with no event left also has a next state is the
model's choice (log entry 2). -/
def Obligations.EveryCommandCompletesInOneStep : Prop :=
  (∀ s : State, ∃ t, step s = .next t) ∧
  (∀ (s : State) (w : Word) (o : Operand), ∃ (t : State),
    ∀ r : Resp, deliver (.command w o) { s with resp := r } = .next t)

/-- Running the steps of a program of host events gives the final state of its observation; the observation
has one response for every command, and after a last command its last response is the final state's (R31, R33,
R129). That a run takes its events from the list `program` is the model's choice (log entry 2). -/
def Obligations.RunOfAProgramIsItsObservation : Prop :=
  ∀ (s : State) (es : List HostEvent), s.program = [] →
    Sys2Proof.core.run es.length { s with program := es } = .next (observe es s).2 ∧
    (observe es s).1.length = (es.filter fun e => e != .reset).length ∧
    (∀ w o, (observe (es ++ [.command w o]) s).1.getLast? =
      some (observe (es ++ [.command w o]) s).2.resp)

/-- Any run that ends in a reset ends in the reset state, whatever came before (R116, vector V7). That the port
inputs and the host's own list of events stay is the model's choice (log entry 6). -/
def Obligations.RunThatEndsInAResetEndsInTheResetState : Prop :=
  ∀ (s : State) (es : List HostEvent),
    ∃ c o, (observe (es ++ [.reset]) s).2 = { State.reset with cmd := c, opnd := o, program := s.program }

/-! ## Field commands, 40_field.md -/

/-- R63, FCFG: the slot's five fields, or StructureError with no slot written. -/
def Obligations.FcfgConstructsAField : Prop :=
  ∀ (s : State) (k : SlotIx) (l z : UInt6),
    (1 ≤ l.toNat ∧ l.toNat + z.toNat ≤ 33 →
      exec (.fcfg k l z) s = .next { s with
        fd := s.fd.set k ⟨true, l, z, s.opnd, BitVec.ofNat 32 ((2 ^ z.toNat - 1) * 2 ^ (l.toNat - 1))⟩
        resp := ⟨0, 0, 0, 0, 0, 0⟩ }) ∧
    (¬ (1 ≤ l.toNat ∧ l.toNat + z.toNat ≤ 33) →
      exec (.fcfg k l z) s = .next { s with resp := ⟨1, 0, 0, 0, 0, 0⟩ })

/-- R64, FFOOT: the cached mask, or NoInstanceError. -/
def Obligations.FfootReturnsTheMask : Prop :=
  ∀ (s : State) (k : SlotIx),
    ((s.slot k).valid = true →
      exec (.ffoot k) s = .next { s with resp := ⟨0, (s.slot k).mask.setWidth 64, 0, 0, 0, 0⟩ }) ∧
    ((s.slot k).valid = false →
      exec (.ffoot k) s = .next { s with resp := ⟨5, 0, 0, 0, 0, 0⟩ })

/-- R65, FUNPACK: the extracted value, RangeError with the violated bound, or NoInstanceError. The result
is stated for a slot that meets R14 (R130; the model gives other slots a free value, log entry 4). -/
def Obligations.FunpackExtracts : Prop :=
  ∀ (s : State) (k : SlotIx),
    ((s.slot k).valid = false →
      exec (.funpack k) s = .next { s with resp := ⟨5, 0, 0, 0, 0, 0⟩ }) ∧
    ((s.slot k).valid = true → s.opnd.toInt < 0 →
      exec (.funpack k) s = .next { s with resp := ⟨2, 0, 0, (s.slot k).name, 0, s.opnd⟩ }) ∧
    ((s.slot k).valid = true → 0xFFFFFFFF < s.opnd.toInt →
      exec (.funpack k) s = .next { s with resp := ⟨2, 0, 0, (s.slot k).name, 0xFFFFFFFF, s.opnd⟩ }) ∧
    ((s.slot k).valid = true → 0 ≤ s.opnd.toInt → s.opnd.toInt ≤ 0xFFFFFFFF →
      1 ≤ (s.slot k).lsb.toNat → (s.slot k).lsb.toNat + (s.slot k).size.toNat ≤ 33 →
      exec (.funpack k) s = .next { s with resp :=
        ⟨0, (s.opnd &&& (s.slot k).mask.setWidth 64) >>> ((s.slot k).lsb.toNat - 1), 0, 0, 0, 0⟩ })

/-- R66, FPACK: the inserted value, RangeError with the violated bound, or NoInstanceError. The result
is stated for a slot that meets R14 (R130; the model gives other slots a free value, log entry 4). -/
def Obligations.FpackInserts : Prop :=
  ∀ (s : State) (k : SlotIx),
    ((s.slot k).valid = false →
      exec (.fpack k) s = .next { s with resp := ⟨5, 0, 0, 0, 0, 0⟩ }) ∧
    ((s.slot k).valid = true → s.opnd.toInt < 0 →
      exec (.fpack k) s = .next { s with resp := ⟨2, 0, 0, (s.slot k).name, 0, s.opnd⟩ }) ∧
    ((s.slot k).valid = true → 2 ^ (s.slot k).size.toNat - 1 < s.opnd.toInt →
      exec (.fpack k) s = .next { s with resp :=
        ⟨2, 0, 0, (s.slot k).name, BitVec.ofInt 64 (2 ^ (s.slot k).size.toNat - 1), s.opnd⟩ }) ∧
    ((s.slot k).valid = true → 0 ≤ s.opnd.toInt → s.opnd.toInt ≤ 2 ^ (s.slot k).size.toNat - 1 →
      1 ≤ (s.slot k).lsb.toNat → (s.slot k).lsb.toNat + (s.slot k).size.toNat ≤ 33 →
      exec (.fpack k) s = .next { s with resp :=
        ⟨0, s.opnd <<< ((s.slot k).lsb.toNat - 1), 0, 0, 0, 0⟩ })

/-- R69, FEQ: always OK, 1 exactly when both slots hold fields that agree in lsb, size and name. -/
def Obligations.FeqComparesTwoFields : Prop :=
  ∀ (s : State) (a b : SlotIx),
    ((s.slot a).valid = true ∧ (s.slot b).valid = true ∧ (s.slot a).lsb = (s.slot b).lsb ∧
        (s.slot a).size = (s.slot b).size ∧ (s.slot a).name = (s.slot b).name →
      exec (.feq a b) s = .next { s with resp := ⟨0, 1, 0, 0, 0, 0⟩ }) ∧
    (¬ ((s.slot a).valid = true ∧ (s.slot b).valid = true ∧ (s.slot a).lsb = (s.slot b).lsb ∧
        (s.slot a).size = (s.slot b).size ∧ (s.slot a).name = (s.slot b).name) →
      exec (.feq a b) s = .next { s with resp := ⟨0, 0, 0, 0, 0, 0⟩ })

/-- R72, FDESC: the name in RESULT, lsb in AUX[5:0], size in AUX[13:8], every other AUX bit 0; or
NoInstanceError. -/
def Obligations.FdescExportsTheAttributes : Prop :=
  ∀ (s : State) (k : SlotIx),
    ((s.slot k).valid = true → ∃ aux : Operand,
      exec (.fdesc k) s = .next { s with resp := ⟨0, (s.slot k).name, aux, 0, 0, 0⟩ } ∧
      aux.extractLsb' 0 6 = (s.slot k).lsb ∧ aux.extractLsb' 8 6 = (s.slot k).size ∧
      aux &&& 0xFFFFFFFFFFFFC0C0 = 0) ∧
    ((s.slot k).valid = false →
      exec (.fdesc k) s = .next { s with resp := ⟨5, 0, 0, 0, 0, 0⟩ })

/-- R68: for every valid slot FFOOT gives exactly `size` one-bits, contiguous, lowest at position lsb. -/
def Obligations.FootprintHasExactlySizeOnesFromLsb : Prop :=
  ∀ (s : State) (k : SlotIx), (s.slot k).Inv → (s.slot k).valid = true →
    ∃ m : Operand, exec (.ffoot k) s = .next { s with resp := ⟨0, m, 0, 0, 0, 0⟩ } ∧
      (∀ j, m.getLsbD j =
        decide ((s.slot k).lsb.toNat - 1 ≤ j ∧ j < (s.slot k).lsb.toNat - 1 + (s.slot k).size.toNat)) ∧
      onesBelow 64 m = (s.slot k).size.toNat ∧
      m.toNat >>> ((s.slot k).lsb.toNat - 1) = 2 ^ (s.slot k).size.toNat - 1

/-- R70: over valid slots FEQ is reflexive, symmetric and transitive, equal slots have equal masks, and slots
that differ in lsb, size or name give 0. -/
def Obligations.FeqIsAnEquivalenceOnValidSlots : Prop :=
  ∀ s : State, s.Inv → ∀ a b c : SlotIx,
    (s.slot a).valid = true → (s.slot b).valid = true → (s.slot c).valid = true →
    exec (.feq a a) s = .next { s with resp := ⟨0, 1, 0, 0, 0, 0⟩ } ∧
    exec (.feq a b) s = exec (.feq b a) s ∧
    (exec (.feq a b) s = .next { s with resp := ⟨0, 1, 0, 0, 0, 0⟩ } →
      (s.slot a).mask = (s.slot b).mask ∧ exec (.feq b c) s = exec (.feq a c) s) ∧
    ((s.slot a).lsb ≠ (s.slot b).lsb ∨ (s.slot a).size ≠ (s.slot b).size ∨
        (s.slot a).name ≠ (s.slot b).name →
      exec (.feq a b) s = .next { s with resp := ⟨0, 0, 0, 0, 0, 0⟩ })

/-- R80: a slot compared with itself is equal exactly when it is valid, FCFG writes its slot without reading
it, and the other Field commands write no slot. -/
def Obligations.NoFieldCommandReadsAndWritesASlot : Prop :=
  ∀ (s : State) (k : SlotIx),
    ((s.slot k).valid = true → exec (.feq k k) s = .next { s with resp := ⟨0, 1, 0, 0, 0, 0⟩ }) ∧
    ((s.slot k).valid = false → exec (.feq k k) s = .next { s with resp := ⟨0, 0, 0, 0, 0, 0⟩ }) ∧
    (∀ (f : Slot) (l z : UInt6), 1 ≤ l.toNat ∧ l.toNat + z.toNat ≤ 33 →
      exec (.fcfg k l z) { s with fd := s.fd.set k f } = exec (.fcfg k l z) s) ∧
    (∀ (i : Instr) (t : State), i.isField = true → (∀ j l z, i ≠ .fcfg j l z) →
      exec i s = .next t → t.fd = s.fd)

/-- R73: unpacking what was packed gives the value back, and packing what was unpacked gives the word's bits
under the mask. -/
def Obligations.UnpackOfPackIsTheValueAndConversely : Prop :=
  ∀ (s : State) (k : SlotIx), (s.slot k).Inv → (s.slot k).valid = true →
    (∀ v : Operand, v.toNat ≤ 2 ^ (s.slot k).size.toNat - 1 → ∃ t u : State,
      exec (.fpack k) { s with opnd := v } = .next t ∧ t.resp.status = 0 ∧
      exec (.funpack k) { t with opnd := t.resp.result } = .next u ∧
      u.resp = ⟨0, v, 0, 0, 0, 0⟩) ∧
    (∀ w : Word, ∃ t u : State,
      exec (.funpack k) { s with opnd := w.setWidth 64 } = .next t ∧ t.resp.status = 0 ∧
      exec (.fpack k) { t with opnd := t.resp.result } = .next u ∧
      u.resp = ⟨0, (w &&& (s.slot k).mask).setWidth 64, 0, 0, 0, 0⟩)

/-- R74: the OR of packed parts of fields that do not overlap unpacks to the parts; overlapping or not, it is
the plain OR of the parts. -/
def Obligations.WordBuiltByOrUnpacksToItsParts : Prop :=
  ∀ (s : State) (parts : List (SlotIx × Operand)),
    (∀ q ∈ parts, (s.slot q.1).Inv ∧ (s.slot q.1).valid = true ∧
      q.2.toNat ≤ 2 ^ (s.slot q.1).size.toNat - 1) →
    ∃ (w : Operand) (t : State), packParts parts 0 s = some (w, t) ∧ t.fd = s.fd ∧ t.par = s.par ∧
      w = parts.foldl (fun (x : Operand) q => x ||| q.2.shiftLeft ((s.slot q.1).lsb.toNat - 1)) 0 ∧
      (parts.Pairwise (fun p q => (s.slot p.1).mask &&& (s.slot q.1).mask = 0) →
        ∀ q ∈ parts, exec (.funpack q.1) { t with opnd := w } =
          .next { t with opnd := w, resp := ⟨0, q.2, 0, 0, 0, 0⟩ })

/-- R62 with R74 and R88: BUILD of parts that do not overlap each other or bit 32 gives a 32-bit word whose
count of ones has the parity the convention names, and PARSE of that word gives the parts back. -/
def Obligations.ParseOfBuildGivesThePartsAndTheParity : Prop :=
  ∀ (s : State) (parts : List (SlotIx × Operand)) (c : ConvCode),
    (c = 0b01 ∨ c = 0b10) →
    (∀ q ∈ parts, (s.slot q.1).Inv ∧ (s.slot q.1).valid = true ∧
      q.2.toNat ≤ 2 ^ (s.slot q.1).size.toNat - 1 ∧ (s.slot q.1).mask &&& 0x80000000 = 0) →
    parts.Pairwise (fun p q => (s.slot p.1).mask &&& (s.slot q.1).mask = 0) →
    ∃ (w : Operand) (t u : State), build parts c s = some (w, t) ∧ w.toNat < 2 ^ 32 ∧
      (onesBelow 32 w % 2 = if c = 0b01 then 1 else 0) ∧
      parse (parts.map Prod.fst) w t = some (parts.map Prod.snd, u) ∧ u.fd = s.fd

/-- R76: FUNPACK's RESULT is always below 2^size; with R35 and R75, every 32-bit result has no bit above
bit 32. -/
def Obligations.FieldResultsFitTheirWidth : Prop :=
  ∀ (s t : State) (k : SlotIx), (s.slot k).Inv →
    (exec (.funpack k) s = .next t → t.resp.status = 0 →
      t.resp.result.toNat < 2 ^ (s.slot k).size.toNat ∧
      ∀ j, (s.slot k).size.toNat ≤ j → t.resp.result.getLsbD j = false) ∧
    (exec (.fpack k) s = .next t → t.resp.result.toNat < 2 ^ 32) ∧
    (exec (.ffoot k) s = .next t → t.resp.result.toNat < 2 ^ 32)

/-- R77: a field of width 0 has mask 0, FFOOT 0, FUNPACK 0 for every legal word; FPACK accepts only 0 and
returns 0; FEQ and FDESC work as for any field. -/
def Obligations.ZeroWidthFieldsHoldOnlyZero : Prop :=
  ∀ (s : State) (k : SlotIx) (l : UInt6), 1 ≤ l.toNat → l.toNat ≤ 33 →
    ∃ t : State, exec (.fcfg k l 0) s = .next t ∧ t.resp.status = 0 ∧ (t.slot k).mask = 0 ∧
      exec (.ffoot k) t = .next { t with resp := ⟨0, 0, 0, 0, 0, 0⟩ } ∧
      (∀ w : Word, exec (.funpack k) { t with opnd := w.setWidth 64 } =
        .next { t with opnd := w.setWidth 64, resp := ⟨0, 0, 0, 0, 0, 0⟩ }) ∧
      exec (.fpack k) { t with opnd := 0 } = .next { t with opnd := 0, resp := ⟨0, 0, 0, 0, 0, 0⟩ } ∧
      (∀ v : Operand, v ≠ 0 → exec (.fpack k) { t with opnd := v } =
        .next { t with opnd := v, resp := ⟨2, 0, 0, s.opnd, 0, v⟩ }) ∧
      exec (.feq k k) t = .next { t with resp := ⟨0, 1, 0, 0, 0, 0⟩ } ∧
      exec (.fdesc k) t = .next { t with resp := ⟨0, s.opnd, l.setWidth 64, 0, 0, 0⟩ }

/-- Read-only use of the block is free of races: a read-only command gives the same response whether or not
another read-only command, with any operand, ran before it (R79, R123). -/
def Obligations.ReadOnlyCommandsDoNotDisturbEachOther : Prop :=
  ∀ (s t u : State) (i j : Instr) (p : Operand), i.readOnly = true → j.readOnly = true →
    exec i { s with opnd := p } = .next t → exec j s = .next u →
    exec j { t with opnd := s.opnd } = .next u

/-! ## Parity commands, 41_parity.md -/

/-- R81: the parity word by the count of ones in document bits 1..31. -/
def Obligations.ParityWordFollowsTheCount : Prop :=
  ∀ p : Operand,
    (onesBelow 31 p % 2 = 0 → pbit p 0b01 = 0x80000000 ∧ pbit p 0b10 = 0) ∧
    (onesBelow 31 p % 2 = 1 → pbit p 0b01 = 0 ∧ pbit p 0b10 = 0x80000000)

/-- R82: the parity tree. The parity word is the XOR of payload bits 1..31 shifted to bit 32, inverted for
odd. -/
def Obligations.ParityTreeGivesTheParityWord : Prop :=
  ∀ p : Operand,
    (pbit p 0b01).toNat = (1 - (xorLow 31 p.toNat).toNat) <<< 31 ∧
    (pbit p 0b10).toNat = (xorLow 31 p.toNat).toNat <<< 31

/-- R88: the completed word has the parity the convention names. -/
def Obligations.CompletedWordHasTheNamedParity : Prop :=
  ∀ (p : Operand) (c : ConvCode), c = 0b01 ∨ c = 0b10 →
    (onesBelow 31 p + onesBelow 32 ((pbit p c).setWidth 64)) % 2 = (if c = 0b01 then 1 else 0) ∧
    onesBelow 32 ((p &&& 0x7FFFFFFF) ||| (pbit p c).setWidth 64) % 2 = (if c = 0b01 then 1 else 0)

/-- R89: the two conventions are complements; R90: only payload bits 1..31 count. -/
def Obligations.ConventionsAreComplementsAndHighBitsAreIgnored : Prop :=
  (∀ p : Operand, pbit p 0b01 ^^^ pbit p 0b10 = 0x80000000) ∧
  (∀ (p q : Operand) (c : ConvCode), c = 0b01 ∨ c = 0b10 →
    p &&& 0x7FFFFFFF = q &&& 0x7FFFFFFF → pbit p c = pbit q c)

/-- R83, PCFG: a new instance without data, or ConventionError with `P` unchanged. -/
def Obligations.PcfgConstructsTheParityUnit : Prop :=
  ∀ (s : State) (c : ConvCode),
    (c = 0b01 ∨ c = 0b10 →
      exec (.pcfg c) s = .next { s with par := ⟨true, c, false, 0⟩, resp := ⟨0, 0, 0, 0, 0, 0⟩ }) ∧
    (c = 0b00 ∨ c = 0b11 →
      exec (.pcfg c) s = .next { s with resp := ⟨3, 0, 0, 0, 0, 0⟩ })

/-- R84, PSET: the whole pattern is stored, or NoInstanceError. -/
def Obligations.PsetStoresThePayload : Prop :=
  ∀ s : State,
    (s.par.pvalid = true →
      exec .pset s = .next { s with par := { s.par with dvalid := true, pdata := s.opnd }
                                    resp := ⟨0, 0, 0, 0, 0, 0⟩ }) ∧
    (s.par.pvalid = false → exec .pset s = .next { s with resp := ⟨5, 0, 0, 0, 0, 0⟩ })

/-- R85, PGET: the payload as stored, NoDataError or NoInstanceError. -/
def Obligations.PgetReturnsThePayload : Prop :=
  ∀ s : State,
    (s.par.pvalid = true → s.par.dvalid = true →
      exec .pget s = .next { s with resp := ⟨0, s.par.pdata, 0, 0, 0, 0⟩ }) ∧
    (s.par.pvalid = true → s.par.dvalid = false →
      exec .pget s = .next { s with resp := ⟨4, 0, 0, 0, 0, 0⟩ }) ∧
    (s.par.pvalid = false → exec .pget s = .next { s with resp := ⟨5, 0, 0, 0, 0, 0⟩ })

/-- R86, PPACK: the parity word of the stored payload, NoDataError or NoInstanceError. -/
def Obligations.PpackReturnsTheParityWord : Prop :=
  ∀ s : State,
    (s.par.pvalid = true → s.par.dvalid = true →
      exec .ppack s = .next { s with resp := ⟨0, (pbit s.par.pdata s.par.conv).setWidth 64, 0, 0, 0, 0⟩ }) ∧
    (s.par.pvalid = true → s.par.dvalid = false →
      exec .ppack s = .next { s with resp := ⟨4, 0, 0, 0, 0, 0⟩ }) ∧
    (s.par.pvalid = false → exec .ppack s = .next { s with resp := ⟨5, 0, 0, 0, 0, 0⟩ })

/-- R87, PCOMP: the parity word of OPND, whatever the parity unit holds, or ConventionError. -/
def Obligations.PcompReturnsTheParityWordOfItsOperand : Prop :=
  ∀ (s : State) (c : ConvCode),
    (c = 0b01 ∨ c = 0b10 →
      exec (.pcomp c) s = .next { s with resp := ⟨0, (pbit s.opnd c).setWidth 64, 0, 0, 0, 0⟩ }) ∧
    (c = 0b00 ∨ c = 0b11 →
      exec (.pcomp c) s = .next { s with resp := ⟨3, 0, 0, 0, 0, 0⟩ })

/-- R92: a successful PPACK or PCOMP returns bit 32 alone or nothing. -/
def Obligations.ParityResultIsBit32OrNothing : Prop :=
  ∀ (s t : State), s.par.Inv →
    (exec .ppack s = .next t → t.resp.status = 0 →
      t.resp.result = 0x80000000 ∨ t.resp.result = 0) ∧
    (∀ c, exec (.pcomp c) s = .next t → t.resp.status = 0 →
      t.resp.result = 0x80000000 ∨ t.resp.result = 0)

/-- R94: PCFG, PSET, PPACK give the RESULT of PCOMP; the sequence leaves P = {1, c, 1, p} and PCOMP leaves P
unchanged. -/
def Obligations.StatefulSequenceEqualsPcomp : Prop :=
  ∀ (s : State) (c : ConvCode) (p : Operand), c = 0b01 ∨ c = 0b10 →
    ∃ t1 t2 t3 u : State, exec (.pcfg c) s = .next t1 ∧ exec .pset { t1 with opnd := p } = .next t2 ∧
      exec .ppack t2 = .next t3 ∧ exec (.pcomp c) { s with opnd := p } = .next u ∧
      t3.resp = u.resp ∧ u.resp.status = 0 ∧ t3.par = ⟨true, c, true, p⟩ ∧ u.par = s.par

/-- R93: within one lifetime the convention is constant and the data does not go away; a lifetime begins with
a successful PCFG, without data, the first PSET gives it data, and a reset ends it. PGET and PPACK operate on what
the last PSET set, whatever other commands ran between. -/
def Obligations.ParityLifetimeKeepsConventionAndLastPayload : Prop :=
  (∀ (s t : State) (i : Instr), exec i s = .next t →
    (∃ c, i = .pcfg c ∧ t.resp.status = 0 ∧ t.par.dvalid = false) ∨
    (t.par.conv = s.par.conv ∧ (s.par.dvalid = true → t.par.dvalid = true))) ∧
  (∀ s : State, s.par.pvalid = true →
    (∃ t : State, exec .pset s = .next t ∧ t.par.dvalid = true) ∧
    (∃ t : State, deliver .reset s = .next t ∧ t.par.pvalid = false)) ∧
  (∀ (s : State) (p : Operand) (es : List HostEvent), s.par.pvalid = true →
    (∀ e ∈ es, ∃ w o, e = .command w o ∧ decode w ≠ .ok .pset ∧
      ∀ c, decode w = .ok (.pcfg c) → c = 0b00 ∨ c = 0b11) →
    (observe (.command (encode .pset) p :: es ++ [.command (encode .pget) 0]) s).2.resp =
      ⟨0, p, 0, 0, 0, 0⟩ ∧
    (observe (.command (encode .pset) p :: es ++ [.command (encode .ppack) 0]) s).2.resp =
      ⟨0, (pbit p s.par.conv).setWidth 64, 0, 0, 0, 0⟩)

/-- The parity-unit race: PPACK returns the parity of the payload another client set between, and NoDataError
after another client's PCFG (R122). -/
def Obligations.ParityUnitRace : Prop :=
  ∀ (s : State) (a b : Operand) (c : ConvCode), s.par.pvalid = true → c = 0b01 ∨ c = 0b10 →
    (observe [.command (encode .pset) a, .command (encode .pset) b, .command (encode .ppack) 0] s).1[2]? =
      some ⟨0, (pbit b s.par.conv).setWidth 64, 0, 0, 0, 0⟩ ∧
    (observe [.command (encode .pset) a, .command (encode (.pcfg c)) 0,
      .command (encode .ppack) 0] s).1[2]? = some ⟨4, 0, 0, 0, 0, 0⟩

/-! ## Whole-machine rules -/

/-- R117: what each command reports right after reset. -/
def Obligations.AfterResetNothingIsConstructed : Prop :=
  ∀ (o : Operand) (k j : SlotIx),
    (∀ i ∈ [Instr.ffoot k, .funpack k, .fpack k, .fdesc k, .pset, .pget, .ppack],
      exec i { State.reset with opnd := o } =
        .next { State.reset with opnd := o, resp := ⟨5, 0, 0, 0, 0, 0⟩ }) ∧
    exec (.feq k j) { State.reset with opnd := o } =
      .next { State.reset with opnd := o, resp := ⟨0, 0, 0, 0, 0, 0⟩ } ∧
    (∀ c, c = 0b01 ∨ c = 0b10 →
      (∃ t, exec (.pcomp c) { State.reset with opnd := o } = .next t ∧ t.resp.status = 0) ∧
      (∃ t, exec (.pcfg c) { State.reset with opnd := o } = .next t ∧ t.resp.status = 0)) ∧
    (∀ l z : UInt6, 1 ≤ l.toNat ∧ l.toNat + z.toNat ≤ 33 →
      ∃ t, exec (.fcfg k l z) { State.reset with opnd := o } = .next t ∧ t.resp.status = 0)

/-- R43: a command presented twice leaves the state and gives the response of presenting it once, for the
read-only commands, FCFG and PSET; a second PCFG clears a payload set between the two. -/
def Obligations.RepeatedCommandsAreIdempotent : Prop :=
  (∀ (s t : State) (i : Instr), (∀ c, i ≠ .pcfg c) → exec i s = .next t → exec i t = .next t) ∧
  (∀ (s : State) (c : ConvCode) (p : Operand), c = 0b01 ∨ c = 0b10 →
    ∃ t1 t2 t3 : State, exec (.pcfg c) s = .next t1 ∧ exec .pset { t1 with opnd := p } = .next t2 ∧
      t2.par.dvalid = true ∧ exec (.pcfg c) t2 = .next t3 ∧ t3.par.dvalid = false)

/-- R16, R17: only a successful FCFG writes a slot, all five fields together, and no command sets valid back to
0, which a reset does. A command also leaves the port inputs alone (R23). -/
def Obligations.OnlySuccessfulFcfgWritesASlot : Prop :=
  (∀ s : State, ∃ t, deliver .reset s = .next t ∧ ∀ k : SlotIx, (t.slot k).valid = false) ∧
  ∀ (s t : State) (i : Instr), exec i s = .next t →
    (∀ k : SlotIx, t.slot k = s.slot k ∨
      ∃ l z, i = .fcfg k l z ∧ t.resp.status = 0 ∧
        t.slot k = ⟨true, l, z, s.opnd, BitVec.ofNat 32 ((2 ^ z.toNat - 1) * 2 ^ (l.toNat - 1))⟩) ∧
    (∀ k : SlotIx, (s.slot k).valid = true → (t.slot k).valid = true) ∧
    t.cmd = s.cmd ∧ t.opnd = s.opnd ∧ t.program = s.program

/-- R21: which commands write and read the parity unit. -/
def Obligations.ParityUnitAccess : Prop :=
  ∀ (s t : State) (i : Instr), exec i s = .next t →
    ((∀ c, i ≠ .pcfg c) → i ≠ .pset → t.par = s.par) ∧
    (i = .pset → t.par =
      if t.resp.status = 0 then { s.par with dvalid := true, pdata := s.opnd } else s.par) ∧
    (∀ c, i = .pcfg c → t.par = if t.resp.status = 0 then ⟨true, c, false, 0⟩ else s.par) ∧
    (i.isField = true ∨ (∃ c, i = .pcomp c) → ∀ p : Par,
      exec i { s with par := p } = .next { t with par := p }) ∧
    (i = .pget → ∀ c, exec .pget { s with par := { s.par with conv := c } } =
      .next { t with par := { s.par with conv := c } })

/-- R118: no command returns a slot or the parity unit to "not constructed"; a reset returns all of them. -/
def Obligations.OnlyResetUnconstructs : Prop :=
  ∀ (s t : State) (e : HostEvent), deliver e s = .next t →
    (∀ k : SlotIx, (s.slot k).valid = true → ((t.slot k).valid = false ↔ e = .reset)) ∧
    (s.par.pvalid = true → (t.par.pvalid = false ↔ e = .reset))

/-- The tier-3 invariant: from every state that meets the slot and parity-unit invariants, every step gives a
state that meets them (R14, R15, R18, R20), and a response of the form of R24, R96, R99 stays of that form. -/
def Obligations.EveryStepKeepsTheInvariants : Prop :=
  ∀ s t : State, step s = .next t →
    (s.Inv → t.Inv) ∧ (s.resp.Inv → t.resp.Inv)

/-- Reset meets the invariants (R14, R18, R20, R29). -/
def Obligations.ResetMeetsTheInvariants : Prop :=
  State.reset.Inv ∧ State.reset.resp.Inv

/-- R14, R15, R18, R20: after any sequence of host events from reset, the slot and parity-unit invariants hold. -/
def Obligations.EveryRunFromResetMeetsTheInvariants : Prop :=
  ∀ es : List HostEvent,
    let s := (observe es State.reset).2
    (∀ k : SlotIx, ((s.slot k).valid = true →
        1 ≤ (s.slot k).lsb.toNat ∧ (s.slot k).lsb.toNat + (s.slot k).size.toNat ≤ 33 ∧
        (s.slot k).mask.toNat = (2 ^ (s.slot k).size.toNat - 1) * 2 ^ ((s.slot k).lsb.toNat - 1)) ∧
      ((s.slot k).valid = false → s.slot k = ⟨false, 0, 0, 0, 0⟩)) ∧
    (s.par.pvalid = false → s.par.conv = 0b00 ∧ s.par.dvalid = false ∧ s.par.pdata = 0) ∧
    (s.par.pvalid = true → s.par.conv = 0b01 ∨ s.par.conv = 0b10) ∧
    (s.par.dvalid = false → s.par.pdata = 0)

/-- The response is write-only for the commands: no command reads STATUS or any other response register, so the
response always describes the most recent command (R25, R26, R125). -/
def Obligations.NoCommandReadsTheResponse : Prop :=
  ∀ (s : State) (i : Instr) (r : Resp), exec i { s with resp := r } = exec i s

/-- OPND has no effect on the commands that take no operand (R56, I10). -/
def Obligations.IgnoredOperandHasNoEffect : Prop :=
  ∀ (s t : State) (i : Instr) (o : Operand),
    ((∃ k, i = .ffoot k) ∨ (∃ a b, i = .feq a b) ∨ (∃ k, i = .fdesc k) ∨ (∃ c, i = .pcfg c) ∨
      i = .pget ∨ i = .ppack) →
    exec i s = .next t → exec i { s with opnd := o } = .next { t with opnd := o }

/-- R99: a command that fails changes only the six response registers, with RESULT and AUX 0, and the arguments
that an error leaves out are 0. -/
def Obligations.FailedCommandChangesOnlyTheResponse : Prop :=
  ∀ s t : State, performPort s = .next t → t.resp.status ≠ 0 →
    t = { s with resp := t.resp } ∧ t.resp.result = 0 ∧ t.resp.aux = 0 ∧
      (t.resp.status ≠ 2 → t.resp.ename = 0 ∧ t.resp.ebound = 0 ∧ t.resp.evalue = 0)

/-- R96: which command raises which code, and exactly when; code 6 comes from decoding alone and codes 7 to
15 are never written. -/
def Obligations.StatusNamesItsCause : Prop :=
  ∀ s t : State, performPort s = .next t →
    t.resp.status.toNat ≤ 6 ∧
    (t.resp.status = 6 ↔ IllegalWord s.cmd) ∧
    ∀ i, decode s.cmd = .ok i →
      (t.resp.status = 1 ↔ ∃ k l z, i = .fcfg k l z ∧ ¬ (1 ≤ l.toNat ∧ l.toNat + z.toNat ≤ 33)) ∧
      (t.resp.status = 2 ↔ ∃ k, (s.slot k).valid = true ∧
        ((i = .funpack k ∧ (s.opnd.toInt < 0 ∨ 0xFFFFFFFF < s.opnd.toInt)) ∨
         (i = .fpack k ∧ (s.opnd.toInt < 0 ∨ 2 ^ (s.slot k).size.toNat - 1 < s.opnd.toInt)))) ∧
      (t.resp.status = 3 ↔ ∃ c, (i = .pcfg c ∨ i = .pcomp c) ∧ (c = 0b00 ∨ c = 0b11)) ∧
      (t.resp.status = 4 ↔ (i = .pget ∨ i = .ppack) ∧ s.par.pvalid = true ∧ s.par.dvalid = false) ∧
      (t.resp.status = 5 ↔
        (∃ k, (i = .ffoot k ∨ i = .funpack k ∨ i = .fpack k ∨ i = .fdesc k) ∧ (s.slot k).valid = false) ∨
        ((i = .pset ∨ i = .pget ∨ i = .ppack) ∧ s.par.pvalid = false))

/-- R100: what a RangeError records, and zeros for everything else. -/
def Obligations.RangeErrorRecordsNameBoundAndValue : Prop :=
  ∀ s t : State, performPort s = .next t →
    (t.resp.status = 2 → ∃ k, t.resp.ename = (s.slot k).name ∧ t.resp.evalue = s.opnd ∧
      (decode s.cmd = .ok (.funpack k) ∧
          t.resp.ebound.toInt = (if s.opnd.toInt < 0 then 0 else 0xFFFFFFFF) ∨
       decode s.cmd = .ok (.fpack k) ∧
          t.resp.ebound.toInt = (if s.opnd.toInt < 0 then 0 else 2 ^ (s.slot k).size.toNat - 1))) ∧
    (t.resp.status ≠ 2 → t.resp.ename = 0 ∧ t.resp.ebound = 0 ∧ t.resp.evalue = 0)

/-- R101: the one error reported is the first in the order IllegalCommand, NoInstanceError, NoDataError, the
command's own check; with none of them the command reports OK. -/
def Obligations.FirstErrorInTheOrderIsReported : Prop :=
  ∀ s : State,
    (IllegalWord s.cmd → ∃ t, performPort s = .next t ∧ t.resp.status = 6) ∧
    ∀ i, decode s.cmd = .ok i → ∃ t, performPort s = .next t ∧
      (MissingInstance i s → t.resp.status = 5) ∧
      (¬ MissingInstance i s → MissingData i s → t.resp.status = 4) ∧
      (¬ MissingInstance i s → ¬ MissingData i s →
        t.resp.status = (OwnCheckFails i s).getD 0)

/-! ## The host's side, 10_state.md R32 -/

/-- R32's convention mapping: exactly "odd" and exactly "even" name a convention, and every other argument
makes PCFG raise ConventionError. -/
def Obligations.OnlyTheExactConventionStringsConstruct : Prop :=
  ∀ (s t : State) (a : ConvArg), exec (.pcfg (convCodeOf a)) s = .next t →
    (a = .text "odd" → t.par = ⟨true, 0b01, false, 0⟩ ∧ t.resp.status = 0) ∧
    (a = .text "even" → t.par = ⟨true, 0b10, false, 0⟩ ∧ t.resp.status = 0) ∧
    (a ≠ .text "odd" → a ≠ .text "even" → convCodeOf a = 0b00 ∧ t.par = s.par ∧ t.resp.status = 3)

/-- With tags that tell the two names apart, FEQ of two constructed fields is the document's equality of
(lsb, size, name) (R32, R120). -/
def Obligations.FeqIsNameEqualityUnderInjectiveTags : Prop :=
  ∀ (ν : Type) (tagOf : ν → Operand) (n m : ν) (s : State) (a b : SlotIx) (l z l' z' : UInt6),
    (tagOf n = tagOf m → n = m) → a ≠ b →
    1 ≤ l.toNat ∧ l.toNat + z.toNat ≤ 33 → 1 ≤ l'.toNat ∧ l'.toNat + z'.toNat ≤ 33 →
    ∃ t u v : State, exec (.fcfg a l z) { s with opnd := tagOf n } = .next t ∧
      exec (.fcfg b l' z') { t with opnd := tagOf m } = .next u ∧
      exec (.feq a b) u = .next v ∧ v.resp.status = 0 ∧
      (v.resp.result = 1 ↔ l = l' ∧ z = z' ∧ n = m) ∧ (v.resp.result = 0 ↔ ¬ (l = l' ∧ z = z' ∧ n = m))

/-- An integer that the port cannot carry is out of the range of FUNPACK and FPACK, and the host's report names
the bound it violates (R32, I6). The host's report is meant for a slot that holds a Field: R32 gives none for an
empty slot, so what this says of a slot that is not valid is the model's choice (log entry 11). -/
def Obligations.UnpresentableIntegersAreOutOfRange : Prop :=
  ∀ (f : Slot) (x : Int),
    (-2 ^ 63 ≤ x ∧ x < 2 ^ 63 → hostUnpackReport f x = none ∧ hostPackReport f x = none) ∧
    (x < -2 ^ 63 → hostUnpackReport f x = some ⟨f.name, 0, x⟩ ∧ hostPackReport f x = some ⟨f.name, 0, x⟩) ∧
    (2 ^ 63 ≤ x → 0xFFFFFFFF < x ∧ 2 ^ f.size.toNat - 1 < x ∧
      hostUnpackReport f x = some ⟨f.name, 0xFFFFFFFF, x⟩ ∧
      hostPackReport f x = some ⟨f.name, 2 ^ f.size.toNat - 1, x⟩)
end

