-- ==== Sys2Proof/Laws/Encoding.lean ====
section
/-! SUPPORT. The command word as a number: each field's place (30_encoding.md R50), for the lemmas about
decoding and encoding. -/

namespace Sys2Proof

/-- The word of R50 as the sum of its fields. -/
theorem cmdWord_toNat (rsv : BitVec 6) (conv : ConvCode) (size lsb : UInt6) (sb sa : SlotIx) (op : BitVec 4) :
    (cmdWord rsv conv size lsb sb sa op).toNat =
      op.toNat + 2 ^ 4 * sa.val + 2 ^ 8 * sb.val + 2 ^ 12 * lsb.toNat + 2 ^ 18 * size.toNat +
        2 ^ 24 * conv.toNat + 2 ^ 26 * rsv.toNat := by
  have h2 : (BitVec.ofFin (w := 4) sa).toNat < 2 ^ 4 := BitVec.isLt _
  have h3 : (BitVec.ofFin (w := 4) sb).toNat < 2 ^ 4 := BitVec.isLt _
  simp only [cmdWord, BitVec.toNat_append]
  rw [← Nat.shiftLeft_add_eq_or_of_lt op.isLt, ← Nat.shiftLeft_add_eq_or_of_lt h2,
    ← Nat.shiftLeft_add_eq_or_of_lt h3, ← Nat.shiftLeft_add_eq_or_of_lt lsb.isLt,
    ← Nat.shiftLeft_add_eq_or_of_lt size.isLt, ← Nat.shiftLeft_add_eq_or_of_lt conv.isLt]
  simp only [Nat.shiftLeft_eq, BitVec.toNat_ofFin]
  omega

variable (w : Word)

theorem cmdOp_toNat : (cmdOp w).toNat = w.toNat % 2 ^ 4 := by
  simp [cmdOp]

theorem cmdSa_val : (cmdSa w).val = w.toNat / 2 ^ 4 % 2 ^ 4 := by
  simp [cmdSa, Nat.shiftRight_eq_div_pow]

theorem cmdSb_val : (cmdSb w).val = w.toNat / 2 ^ 8 % 2 ^ 4 := by
  simp [cmdSb, Nat.shiftRight_eq_div_pow]

theorem cmdLsb_toNat : (cmdLsb w).toNat = w.toNat / 2 ^ 12 % 2 ^ 6 := by
  simp [cmdLsb, Nat.shiftRight_eq_div_pow]

theorem cmdSize_toNat : (cmdSize w).toNat = w.toNat / 2 ^ 18 % 2 ^ 6 := by
  simp [cmdSize, Nat.shiftRight_eq_div_pow]

theorem cmdConv_toNat : (cmdConv w).toNat = w.toNat / 2 ^ 24 % 2 ^ 2 := by
  simp [cmdConv, Nat.shiftRight_eq_div_pow]

theorem cmdRsv_toNat : (cmdRsv w).toNat = w.toNat / 2 ^ 26 % 2 ^ 6 := by
  simp [cmdRsv, Nat.shiftRight_eq_div_pow]

/-- Each operand field read back from the word of R50. -/
theorem cmdWord_fields (rsv : BitVec 6) (conv : ConvCode) (size lsb : UInt6) (sb sa : SlotIx) (op : BitVec 4) :
    let w := cmdWord rsv conv size lsb sb sa op
    cmdOp w = op ∧ cmdSa w = sa ∧ cmdSb w = sb ∧ cmdLsb w = lsb ∧ cmdSize w = size ∧ cmdConv w = conv ∧
      cmdRsv w = rsv := by
  intro w
  have hw := cmdWord_toNat rsv conv size lsb sb sa op
  have h1 := op.isLt
  have h2 : sa.val < 16 := sa.isLt
  have h3 : sb.val < 16 := sb.isLt
  have h4 := lsb.isLt
  have h5 := size.isLt
  have h6 := conv.isLt
  have h7 := rsv.isLt
  refine ⟨BitVec.eq_of_toNat_eq ?_, Fin.ext ?_, Fin.ext ?_, BitVec.eq_of_toNat_eq ?_, BitVec.eq_of_toNat_eq ?_,
    BitVec.eq_of_toNat_eq ?_, BitVec.eq_of_toNat_eq ?_⟩
  · rw [cmdOp_toNat, hw]; omega
  · rw [cmdSa_val, hw]; omega
  · rw [cmdSb_val, hw]; omega
  · rw [cmdLsb_toNat, hw]; omega
  · rw [cmdSize_toNat, hw]; omega
  · rw [cmdConv_toNat, hw]; omega
  · rw [cmdRsv_toNat, hw]; omega

/-- What it takes for a word to decode to a command: its opcode and operand fields name it, and the word meets
the command's mask (R53, R58). -/
theorem decode_eq_ok_iff (i : Instr) :
    decode w = .ok i ↔ readOperands w = some i ∧ w &&& i.row.mask = i.row.pattern := by
  unfold decode
  split
  · rename_i h
    simp [h]
  · rename_i j h
    by_cases hm : w &&& j.row.mask = j.row.pattern
    · simp only [hm, if_true, Except.ok.injEq, h, Option.some.injEq]
      exact ⟨fun e => ⟨e, e ▸ hm⟩, fun e => e.1⟩
    · simp only [hm, if_false, reduceCtorEq, h, Option.some.injEq, false_iff]
      rintro ⟨rfl, hi⟩
      exact hm hi

end Sys2Proof
end

