-- ==== Sys2Proof/Laws/State.lean ====
section
/-! SUPPORT. One lemma per field and update of the state, so that no proof unfolds a record update. -/

namespace Sys2Proof.Machine

variable (s : State) (k j : SlotIx) (f : Slot) (p : Par) (r : Resp) (c : Word) (o : Operand) (es : List HostEvent)

@[simp] theorem State.setSlot_par : (s.setSlot k f).par = s.par := rfl
@[simp] theorem State.setSlot_resp : (s.setSlot k f).resp = s.resp := rfl
@[simp] theorem State.setSlot_cmd : (s.setSlot k f).cmd = s.cmd := rfl
@[simp] theorem State.setSlot_opnd : (s.setSlot k f).opnd = s.opnd := rfl
@[simp] theorem State.setSlot_program : (s.setSlot k f).program = s.program := rfl
@[simp] theorem State.setSlot_fd : (s.setSlot k f).fd = s.fd.set k f := rfl

@[simp] theorem State.setPar_fd : (s.setPar p).fd = s.fd := rfl
@[simp] theorem State.setPar_par : (s.setPar p).par = p := rfl
@[simp] theorem State.setPar_resp : (s.setPar p).resp = s.resp := rfl
@[simp] theorem State.setPar_cmd : (s.setPar p).cmd = s.cmd := rfl
@[simp] theorem State.setPar_opnd : (s.setPar p).opnd = s.opnd := rfl
@[simp] theorem State.setPar_program : (s.setPar p).program = s.program := rfl
@[simp] theorem State.setPar_slot : (s.setPar p).slot k = s.slot k := rfl

@[simp] theorem State.setResp_fd : (s.setResp r).fd = s.fd := rfl
@[simp] theorem State.setResp_par : (s.setResp r).par = s.par := rfl
@[simp] theorem State.setResp_resp : (s.setResp r).resp = r := rfl
@[simp] theorem State.setResp_cmd : (s.setResp r).cmd = s.cmd := rfl
@[simp] theorem State.setResp_opnd : (s.setResp r).opnd = s.opnd := rfl
@[simp] theorem State.setResp_program : (s.setResp r).program = s.program := rfl
@[simp] theorem State.setResp_slot : (s.setResp r).slot k = s.slot k := rfl

@[simp] theorem State.drive_fd : (s.drive c o).fd = s.fd := rfl
@[simp] theorem State.drive_par : (s.drive c o).par = s.par := rfl
@[simp] theorem State.drive_resp : (s.drive c o).resp = s.resp := rfl
@[simp] theorem State.drive_cmd : (s.drive c o).cmd = c := rfl
@[simp] theorem State.drive_opnd : (s.drive c o).opnd = o := rfl
@[simp] theorem State.drive_program : (s.drive c o).program = s.program := rfl
@[simp] theorem State.drive_slot : (s.drive c o).slot k = s.slot k := rfl

@[simp] theorem State.setProgram_fd : (s.setProgram es).fd = s.fd := rfl
@[simp] theorem State.setProgram_par : (s.setProgram es).par = s.par := rfl
@[simp] theorem State.setProgram_resp : (s.setProgram es).resp = s.resp := rfl
@[simp] theorem State.setProgram_cmd : (s.setProgram es).cmd = s.cmd := rfl
@[simp] theorem State.setProgram_opnd : (s.setProgram es).opnd = s.opnd := rfl
@[simp] theorem State.setProgram_program : (s.setProgram es).program = es := rfl
@[simp] theorem State.setProgram_slot : (s.setProgram es).slot k = s.slot k := rfl

@[simp] theorem applyReset_fd : (applyReset s).fd = State.reset.fd := rfl
@[simp] theorem applyReset_par : (applyReset s).par = State.reset.par := rfl
@[simp] theorem applyReset_resp : (applyReset s).resp = State.reset.resp := rfl
@[simp] theorem applyReset_cmd : (applyReset s).cmd = s.cmd := rfl
@[simp] theorem applyReset_opnd : (applyReset s).opnd = s.opnd := rfl
@[simp] theorem applyReset_program : (applyReset s).program = s.program := rfl

/-- A slot that was written reads as what was written. -/
@[simp] theorem State.setSlot_slot_self : (s.setSlot k f).slot k = f := by
  simp [State.slot]

/-- Writing one slot leaves every other slot alone. -/
theorem State.setSlot_slot_ne (h : j ≠ k) : (s.setSlot k f).slot j = s.slot j := by
  have hv : (k : Nat) ≠ (j : Nat) := fun e => h (Fin.ext e.symm)
  simp [State.slot, hv]

/-- Every slot is empty after reset (R29). -/
@[simp] theorem State.reset_slot : State.reset.slot k = Slot.empty := by
  simp [State.slot, State.reset]

@[simp] theorem applyReset_slot : (applyReset s).slot k = Slot.empty := State.reset_slot k

end Sys2Proof.Machine
end

