-- ==== Sys2Proof/Laws/Ops.lean ====
section
/-! SUPPORT. What each shared operation of Machine/Ops.lean and Machine/Operands.lean can do, said once. -/

namespace Sys2Proof.Machine

/-! ## The response -/

/-- `respondOk` ends in the one next state that differs in the response record. -/
theorem respondOk_eq (s : State) (r a : Operand) :
    respondOk s r a = .next (s.setResp ⟨0, r, a, 0, 0, 0⟩) := rfl

/-- `raise` ends in the one next state that differs in the response record. -/
theorem raise_eq (e : ErrorKind) (s : State) : raise e s = .next (s.setResp (errorResp e)) := rfl

theorem respondOk_next {s t : State} {r a : Operand} (h : respondOk s r a = .next t) :
    t = s.setResp ⟨0, r, a, 0, 0, 0⟩ := by
  simpa [respondOk_eq, eq_comm] using h

theorem raise_next {e : ErrorKind} {s t : State} (h : raise e s = .next t) :
    t = s.setResp (errorResp e) := by
  simpa [raise_eq, eq_comm] using h

@[simp] theorem errorResp_status (e : ErrorKind) : (errorResp e).status = errorCode e := by
  cases e <;> rfl

@[simp] theorem errorResp_result (e : ErrorKind) : (errorResp e).result = 0 := by cases e <;> rfl

@[simp] theorem errorResp_aux (e : ErrorKind) : (errorResp e).aux = 0 := by cases e <;> rfl

/-- An error code is never OK and never one of the codes that no command writes. -/
theorem errorCode_range (e : ErrorKind) : errorCode e ≠ 0 ∧ (errorCode e).toNat ≤ 6 := by
  cases e <;> simp [errorCode]

/-- Presenting a signed value at the port and reading it back gives it again (R7). -/
@[simp] theorem u64_s64 (p : Operand) : u64 (s64 p) = p := BitVec.ofInt_toInt

/-! ## Fields -/

theorem legalField_iff (l z : UInt6) :
    legalField l z = true ↔ 1 ≤ l.toNat ∧ l.toNat + z.toNat ≤ 33 := by
  simp [legalField]

theorem legalConv_iff (c : ConvCode) : legalConv c = true ↔ c = 0b01 ∨ c = 0b10 := by
  simp [legalConv]

/-- On a legal field, extraction is the masked shift of R65. -/
theorem extractField_of_legal {f : Slot} (h : legalField f.lsb f.size = true) (w : Operand) :
    extractField f w = BitVec.ofNat 64 ((w.toNat &&& f.mask.toNat) >>> (f.lsb.toNat - 1)) := by
  simp [extractField, h]

/-- On a legal field, insertion is the shift of R66. -/
theorem insertField_of_legal {f : Slot} (h : legalField f.lsb f.size = true) (v : Operand) :
    insertField f v = BitVec.ofNat 64 (v.toNat <<< (f.lsb.toNat - 1)) := by
  simp [insertField, h]

/-- The mask of a legal field as a number: no bit falls off its 32 bits (R15). -/
theorem fieldMask_toNat {l z : UInt6} (h : 1 ≤ l.toNat ∧ l.toNat + z.toNat ≤ 33) :
    (fieldMask l z).toNat = (2 ^ z.toNat - 1) * 2 ^ (l.toNat - 1) := by
  have hp : 2 ^ z.toNat * 2 ^ (l.toNat - 1) ≤ 2 ^ 32 := by
    rw [← Nat.pow_add]; exact Nat.pow_le_pow_right (by decide) (by omega)
  have h1 : 0 < 2 ^ z.toNat := Nat.two_pow_pos _
  have h2 : 0 < 2 ^ (l.toNat - 1) := Nat.two_pow_pos _
  have hm : (2 ^ z.toNat - 1) * 2 ^ (l.toNat - 1) < 2 ^ 32 := by
    rw [Nat.sub_mul, Nat.one_mul]; omega
  simp only [fieldMask, Nat.shiftLeft_eq, Nat.one_mul, BitVec.toNat_ofNat]
  exact Nat.mod_eq_of_lt hm

/-- Which bits of a word a legal field's mask holds (R6, R15). -/
theorem fieldMask_testBit {l z : UInt6} (h : 1 ≤ l.toNat ∧ l.toNat + z.toNat ≤ 33) (j : Nat) :
    (fieldMask l z).toNat.testBit j = decide (l.toNat - 1 ≤ j ∧ j < l.toNat - 1 + z.toNat) := by
  rw [fieldMask_toNat h, Nat.mul_comm, Nat.testBit_two_pow_mul, Nat.testBit_two_pow_sub_one]
  by_cases hj : l.toNat - 1 ≤ j <;> simp [hj]
  omega

theorem fieldsEqual_iff (a b : Slot) : fieldsEqual a b = true ↔
    a.valid = true ∧ b.valid = true ∧ a.lsb = b.lsb ∧ a.size = b.size ∧ a.name = b.name := by
  simp [fieldsEqual, and_assoc]

/-! ## Parity -/

/-- `popcountLow` counts the ones bit by bit. -/
theorem popcountLow_eq_length (n v : Nat) :
    popcountLow n v = ((List.range n).filter fun j => v.testBit j).length := by
  induction n with
  | zero => rfl
  | succ n ih =>
    rw [popcountLow, ih, List.range_succ, List.filter_append, List.length_append]
    cases h : v.testBit n <;> simp [h]

/-- The XOR of the low bits says whether their count is odd (R82). -/
theorem xorLow_eq_odd (n v : Nat) : xorLow n v = decide (popcountLow n v % 2 = 1) := by
  induction n with
  | zero => rfl
  | succ n ih =>
    rw [xorLow, popcountLow, ih]
    rcases Nat.mod_two_eq_zero_or_one (popcountLow n v) with h | h <;>
      cases v.testBit n <;> simp [h, Nat.add_mod]

theorem pbit_odd (p : Operand) :
    pbit p 0b01 = if popcountLow 31 p.toNat % 2 = 0 then parityBit else 0 := by simp [pbit]

theorem pbit_even (p : Operand) :
    pbit p 0b10 = if popcountLow 31 p.toNat % 2 = 1 then parityBit else 0 := by simp [pbit]

/-- Under a convention, the parity word is bit 32 or nothing (R92). -/
theorem pbit_cases (p : Operand) {c : ConvCode} (h : c = 0b01 ∨ c = 0b10) :
    pbit p c = parityBit ∨ pbit p c = 0 := by
  rcases h with rfl | rfl
  · rw [pbit_odd]; split <;> simp
  · rw [pbit_even]; split <;> simp

end Sys2Proof.Machine
end

