-- ==== Sys2Proof/Laws/Exec.lean ====
section
/-! SUPPORT. What a command and a step can do, said once: the proofs about frames and invariants split the cases
of `exec_next` and do not unfold the meanings. -/

namespace Sys2Proof.Machine

/-- Everything a command can do to the state, guards included: an error or an OK response alone, a slot written by a
legal FCFG, a parity unit constructed by a legal PCFG, or a payload stored by PSET (R16, R21, R99). -/
theorem exec_next {i : Instr} {s t : State} (h : exec i s = .next t) :
    (∃ e, t = s.setResp (errorResp e)) ∨
    (∃ r a, t = s.setResp ⟨0, r, a, 0, 0, 0⟩) ∨
    (∃ k l z, i = .fcfg k l z ∧ legalField l z = true ∧
      t = (s.setSlot k ⟨true, l, z, s.opnd, fieldMask l z⟩).setResp Resp.zero) ∨
    (∃ c, i = .pcfg c ∧ legalConv c = true ∧ t = (s.setPar ⟨true, c, false, 0⟩).setResp Resp.zero) ∨
    (i = .pset ∧ s.par.pvalid = true ∧
      t = (s.setPar ⟨s.par.pvalid, s.par.conv, true, s.opnd⟩).setResp Resp.zero) := by
  cases i <;>
    simp only [exec, execFcfg, execFfoot, execFunpack, execFpack, execFeq, execFdesc, execPcfg, execPset, execPget,
      execPpack, execPcomp, respondOk_eq, raise_eq] at h <;>
    split_ifs at h <;> simp only [Host.Outcome.next.injEq] at h <;> subst h
  all_goals first
    | exact .inl ⟨_, rfl⟩
    | exact .inr (.inl ⟨_, _, rfl⟩)
    | exact .inr (.inr (.inl ⟨_, _, _, rfl, by assumption, rfl⟩))
    | exact .inr (.inr (.inr (.inl ⟨_, rfl, by assumption, rfl⟩)))
    | exact .inr (.inr (.inr (.inr ⟨rfl, by assumption, rfl⟩)))

/-- The command at the port, when its word decodes. -/
theorem performPort_of_ok {s : State} {i : Instr} (h : decode s.cmd = .ok i) : performPort s = exec i s := by
  simp [performPort, h]

/-- The command at the port, when its word is illegal. -/
theorem performPort_of_error {s : State} {e : DecodeError} (h : decode s.cmd = .error e) :
    performPort s = raise .illegalCommand s := by
  simp [performPort, h]

/-- A step with an event left delivers it. -/
theorem nextEvent_cons {s : State} {e : HostEvent} {es : List HostEvent} (h : s.program = e :: es) :
    nextEvent s = deliver e (s.setProgram es) := by
  simp [nextEvent, h]

/-- The observation of a run, one event at a time. -/
theorem observe_cons {e : HostEvent} {s t : State} (es : List HostEvent) (h : deliver e s = .next t) :
    observe (e :: es) s = (responsesOf e t ++ (observe es t).1, (observe es t).2) := by
  simp [observe, h]

end Sys2Proof.Machine
end

