-- ==== Sys2Proof/Laws/PerInstr.lean ====
section
/-! SUPPORT. The family EncodesItsRow: the word that `encode` gives a command is a word of that command's row,
`CMD & mask = match` (30_encoding.md R53), one lemma per constructor. -/

namespace Sys2Proof.Laws.EncodesItsRow

/-- The encoded word meets its own row's mask and match. -/
def Statement (i : Instr) : Prop := encode i &&& i.row.mask = i.row.pattern

theorem fcfg (sa : SlotIx) (lsb size : UInt6) : Statement (.fcfg sa lsb size) := by
  apply BitVec.eq_of_getLsbD_eq
  intro j hj
  simp only [encode, Instr.row, cmdWord, BitVec.getLsbD_and, BitVec.getLsbD_append]
  interval_cases j <;> simp

theorem ffoot (sa : SlotIx) : Statement (.ffoot sa) := by
  revert sa; unfold Statement; decide

theorem funpack (sa : SlotIx) : Statement (.funpack sa) := by
  revert sa; unfold Statement; decide

theorem fpack (sa : SlotIx) : Statement (.fpack sa) := by
  revert sa; unfold Statement; decide

theorem feq (sa sb : SlotIx) : Statement (.feq sa sb) := by
  revert sa sb; unfold Statement; decide

theorem fdesc (sa : SlotIx) : Statement (.fdesc sa) := by
  revert sa; unfold Statement; decide

theorem pcfg (conv : ConvCode) : Statement (.pcfg conv) := by
  revert conv; unfold Statement; decide

theorem pset : Statement .pset := by unfold Statement; decide

theorem pget : Statement .pget := by unfold Statement; decide

theorem ppack : Statement .ppack := by unfold Statement; decide

theorem pcomp (conv : ConvCode) : Statement (.pcomp conv) := by
  revert conv; unfold Statement; decide

end Sys2Proof.Laws.EncodesItsRow
end

