-- ==== Sys2Proof/Tests/Slice0.lean ====
section
/-! SUPPORT. Tests. Expected values come from the spec: the encodings of 30_encoding.md R50 and section 4, the
vectors W1 to W15 and V1 to V7 of 95_test_vectors.md. The second half holds a witness for the hypotheses of
every statement that has some. -/

namespace Sys2Proof.Tests

open Sys2Proof.Machine

/-! ## Helpers -/

/-- The response of an outcome that is a next state. -/
def respOf : Result → Option Resp
  | .next t => some t.resp
  | .fault _ => none
  | .refused _ => none

/-- A constructed field in slot `k`. -/
def withField (s : State) (k : SlotIx) (l z : UInt6) (n : Operand) : State :=
  s.setSlot k ⟨true, l, z, n, fieldMask l z⟩

/-- Slots 1 (1, 8), 2 (1, 32), 3 (9, 2), 5 (11, 19), 6 (1, 8) with slot 1's name, 7 (32, 1) and 15 (33, 0);
every other slot is empty. -/
def slots : State :=
  withField (withField (withField (withField (withField (withField (withField State.reset
    1 1 8 0x33) 2 1 32 0x33) 3 9 2 2) 5 11 19 9) 6 1 8 0x33) 7 32 1 7) 15 33 0 0

/-- `slots` with a parity unit of convention `c` that holds `p`. -/
def withPar (c : ConvCode) (p : Operand) : State := slots.setPar ⟨true, c, true, p⟩

/-- A state with OPND driven. -/
def opnd (s : State) (o : Int) : State := s.drive 0 (BitVec.ofInt 64 o)

/-- A host tag mapping for the tests. -/
def tags (t : String) : Operand := if t = "LAB" then 0x4C4142 else 0

/-! ## Well-formedness: one ill-formed line for each check (R57, R32) -/

theorem test_wf_accepts : AsmLine.wellFormed (.fcfg 15 33 63 (some (.num (-1)))) = true := by decide
theorem test_wf_slot : AsmLine.wellFormed (.fcfg 16 1 8 none) = false ∧ AsmLine.wellFormed (.feq 0 16) = false := by
  decide
theorem test_wf_six_bits : AsmLine.wellFormed (.fcfg 0 64 0 none) = false ∧
    AsmLine.wellFormed (.fcfg 0 0 64 none) = false := by decide
theorem test_wf_conv : AsmLine.wellFormed (.pcfg (.raw 4)) = false ∧ AsmLine.wellFormed (.pcfg (.raw 3)) = true := by
  decide
theorem test_wf_operand : AsmLine.wellFormed (.fpack 0 (some (2 ^ 63))) = false ∧
    AsmLine.wellFormed (.fpack 0 (some (-2 ^ 63))) = true ∧
    AsmLine.wellFormed (.fpack 0 (some (-2 ^ 63 - 1))) = false := by decide
theorem test_wf_name : AsmLine.wellFormed (.fcfg 0 1 8 (some (.num (2 ^ 63)))) = false := by decide
theorem test_assemble_refuses : assemble tags (.ffoot 16) = none := by decide
theorem test_assemble_fcfg : assemble tags (.fcfg 0 1 8 (some (.text "LAB"))) = some (.fcfg 0 1 8, 0x4C4142) := by
  decide
theorem test_assemble_pcomp : assemble tags (.pcomp .even (some (-1))) =
    some (.pcomp 0b10, 0xFFFFFFFFFFFFFFFF) := by decide

/-! ## Decoding: words written out bit by bit from the layout of R50 (RSV CONV SIZE LSB SB SA OP) -/

theorem test_decode_fcfg : decode 0b000000_00_010011_001011_0000_0010_0001 = .ok (.fcfg 2 11 19) := by decide
theorem test_decode_ffoot : decode 0b000000_00_000000_000000_0000_0101_0010 = .ok (.ffoot 5) := by decide
theorem test_decode_funpack : decode 0b000000_00_000000_000000_0000_0010_0011 = .ok (.funpack 2) := by decide
theorem test_decode_fpack : decode 0b000000_00_000000_000000_0000_1111_0100 = .ok (.fpack 15) := by decide
theorem test_decode_feq : decode 0b000000_00_000000_000000_0011_0001_0101 = .ok (.feq 1 3) := by decide
theorem test_decode_fdesc : decode 0b000000_00_000000_000000_0000_0111_0110 = .ok (.fdesc 7) := by decide
theorem test_decode_pcfg : decode 0b000000_11_000000_000000_0000_0000_0111 = .ok (.pcfg 0b11) := by decide
theorem test_decode_pset : decode 0b000000_00_000000_000000_0000_0000_1000 = .ok .pset := by decide
theorem test_decode_pget : decode 0b000000_00_000000_000000_0000_0000_1001 = .ok .pget := by decide
theorem test_decode_ppack : decode 0b000000_00_000000_000000_0000_0000_1010 = .ok .ppack := by decide
theorem test_decode_pcomp : decode 0b000000_10_000000_000000_0000_0000_1011 = .ok (.pcomp 0b10) := by decide
/-- V1: FCFG with SB not 0, PSET with SA not 0, FFOOT with LSB not 0, opcode 0xC. -/
theorem test_decode_illegal : decode 0x00FFFFF1 = .error (.unusedField "FCFG") ∧
    decode 0x00000018 = .error (.unusedField "PSET") ∧ decode 0x00001002 = .error (.unusedField "FFOOT") ∧
    decode 0x0000000C = .error (.unassignedOp 0xC) := by decide
/-- The encodings of 30_encoding.md section 4. -/
theorem test_encode : encode (.fcfg 15 33 0) = 0x000210F1 ∧ encode (.feq 1 3) = 0x00000315 ∧
    encode (.pcfg 0b01) = 0x01000007 := by decide
theorem test_table_word : decodeTableWord 32 0x004CB021 = some (.fcfg 2 11 19) := by decide

/-! ## Single steps: vectors of 95_test_vectors.md -/

/-- V2 (32, 1) and (11, 19): the cached mask. -/
theorem test_fcfg_mask : fieldMask 32 1 = 0x80000000 ∧ fieldMask 11 19 = 0x1FFFFC00 ∧ fieldMask 33 0 = 0 ∧
    fieldMask 1 32 = 0xFFFFFFFF := by decide
/-- V6 S1: a failed FCFG. -/
theorem test_fcfg_fails : respOf (exec (.fcfg 5 20 19) slots) = some ⟨1, 0, 0, 0, 0, 0⟩ := by decide
/-- Example of R64. -/
theorem test_ffoot : respOf (exec (.ffoot 5) slots) = some ⟨0, 0x1FFFFC00, 0, 0, 0, 0⟩ := by decide
/-- V3 (11, 19) FUNPACK. -/
theorem test_funpack : respOf (exec (.funpack 5) (opnd slots 0x12345678)) = some ⟨0, 0x48D15, 0, 0, 0, 0⟩ := by
  decide
/-- W4. -/
theorem test_funpack_range : respOf (exec (.funpack 1) (opnd slots 0x100000000)) =
    some ⟨2, 0, 0, 0x33, 0xFFFFFFFF, 0x100000000⟩ := by decide
/-- V3 (11, 19) FPACK. -/
theorem test_fpack : respOf (exec (.fpack 5) (opnd slots 0x48D15)) = some ⟨0, 0x12345400, 0, 0, 0, 0⟩ := by decide
/-- V3 (1, 8) FPACK of -0x100: bound 0, not 0xFF. -/
theorem test_fpack_negative : respOf (exec (.fpack 1) (opnd slots (-0x100))) =
    some ⟨2, 0, 0, 0x33, 0, 0xFFFFFFFFFFFFFF00⟩ := by decide
/-- W6 and V4. -/
theorem test_feq : respOf (exec (.feq 1 6) slots) = some ⟨0, 1, 0, 0, 0, 0⟩ ∧
    respOf (exec (.feq 9 9) slots) = some ⟨0, 0, 0, 0, 0, 0⟩ := by decide
/-- V4. -/
theorem test_fdesc : respOf (exec (.fdesc 5) slots) = some ⟨0, 9, 0x130B, 0, 0, 0⟩ := by decide
theorem test_fdesc_zero : respOf (exec (.fdesc 15) slots) = some ⟨0, 0, 0x21, 0, 0, 0⟩ := by decide
/-- W14. -/
theorem test_pcfg_illegal : respOf (exec (.pcfg 0b11) slots) = some ⟨3, 0, 0, 0, 0, 0⟩ := by decide
/-- V6 S3: a successful PCFG clears the data. -/
theorem test_pcfg_clears : exec (.pcfg 0b10) (withPar 0b01 5) =
    .next ((slots.setPar ⟨true, 0b10, false, 0⟩).setResp ⟨0, 0, 0, 0, 0, 0⟩) := rfl
/-- V6 S4: the pattern of -1 is stored whole. -/
theorem test_pset : exec .pset (opnd (withPar 0b10 0) (-1)) =
    .next ((opnd (withPar 0b10 0xFFFFFFFFFFFFFFFF) (-1)).setResp ⟨0, 0, 0, 0, 0, 0⟩) := rfl
/-- V6 S4. -/
theorem test_pget : respOf (exec .pget (withPar 0b10 0xFFFFFFFFFFFFFFFF)) =
    some ⟨0, 0xFFFFFFFFFFFFFFFF, 0, 0, 0, 0⟩ := by decide
/-- W7 and W8. -/
theorem test_ppack : respOf (exec .ppack (withPar 0b01 0)) = some ⟨0, 0x80000000, 0, 0, 0, 0⟩ ∧
    respOf (exec .ppack (withPar 0b01 0x7FFFFFFF)) = some ⟨0, 0, 0, 0, 0, 0⟩ := by decide
/-- W15. -/
theorem test_ppack_no_data : respOf (exec .ppack (slots.setPar ⟨true, 0b01, false, 0⟩)) =
    some ⟨4, 0, 0, 0, 0, 0⟩ := by decide
/-- W9 (0x65 has four ones) and V5 (bit 32 ignored). -/
theorem test_pcomp : respOf (exec (.pcomp 0b10) (opnd slots 0x65)) = some ⟨0, 0, 0, 0, 0, 0⟩ ∧
    respOf (exec (.pcomp 0b01) (opnd slots 0x80000000)) = some ⟨0, 0x80000000, 0, 0, 0, 0⟩ := by decide
/-- V5: both conventions of -2, and of 0x1D25. -/
theorem test_pbit : pbit 0xFFFFFFFFFFFFFFFE 0b01 = 0x80000000 ∧ pbit 0xFFFFFFFFFFFFFFFE 0b10 = 0 ∧
    pbit 0x1D25 0b01 = 0 ∧ pbit 0x1D25 0b10 = 0x80000000 := by decide
/-- V1: the all-zero word, as the first command after reset. -/
theorem test_step_illegal : respOf (step (State.reset.withFetchWord 32 0)) = some ⟨6, 0, 0, 0, 0, 0⟩ := by decide
/-- V1: FDESC f0 right after reset. -/
theorem test_step_first : respOf (step (State.reset.withFetchWord 32 0x00000006)) = some ⟨5, 0, 0, 0, 0, 0⟩ := by
  decide
/-- W14: the convention strings. -/
theorem test_convention_strings : convCodeOf (.text "odd") = 0b01 ∧ convCodeOf (.text "even") = 0b10 ∧
    convCodeOf (.text "Odd") = 0b00 ∧ convCodeOf (.text "") = 0b00 ∧ convCodeOf .nonString = 0b00 := by decide
/-- P1, the host's steps 5 to 11 on two of its fields: label 0xA5 and data 0x48D15 with odd parity; 12 ones, so bit 32 is
set. -/
theorem test_build : (build [(1, 0xA5), (5, 0x48D15)] 0b01 slots).map Prod.fst = some 0x923454A5 := by decide

/-! ## Witnesses: the hypotheses of the statements can be met -/

theorem witness_EncodeOfDecodeIsTheWord : decode 0x00801011 = .ok (.fcfg 1 1 32) := by decide
theorem witness_illegal_opcodes : IllegalWord 0x0000000C ∧ IllegalWord 0 := ⟨by decide, by decide⟩
theorem witness_illegal_fields : IllegalWord 0x04000008 ∧ IllegalWord 0x01000006 ∧
    IllegalWord 0x00001002 ∧ IllegalWord 0x00000104 ∧ IllegalWord 0x00000017 := by
  refine ⟨?_, ?_, ?_, ?_, ?_⟩ <;> decide
theorem witness_legal_words : ¬ IllegalWord 0x0300000B ∧ ¬ IllegalWord 0x00FFF0F1 ∧ ¬ IllegalWord 0x00000FF5 :=
  ⟨by decide, by decide, by decide⟩
theorem witness_StepRunsTheDecodedCommand :
    (slots.withFetchWord 32 0x52).program = .command 0x52 0 :: [] ∧ decode 0x52 = .ok (.ffoot 5) ∧
    decode 0x0C = .error (.unassignedOp 0xC) := by decide
theorem witness_ResetEventRestoresTheResetState : (slots.setProgram [.reset]).program = .reset :: [] := rfl
theorem witness_empty_program : slots.program = [] := rfl
/-- For FcfgConstructsAField, AfterResetNothingIsConstructed and NoFieldCommandReadsAndWritesASlot. -/
theorem witness_legal_fields :
    (1 ≤ (1 : UInt6).toNat ∧ (1 : UInt6).toNat + (32 : UInt6).toNat ≤ 33) ∧
    (1 ≤ (33 : UInt6).toNat ∧ (33 : UInt6).toNat + (0 : UInt6).toNat ≤ 33) ∧
    ¬ (1 ≤ (33 : UInt6).toNat ∧ (33 : UInt6).toNat + (1 : UInt6).toNat ≤ 33) ∧
    ¬ (1 ≤ (0 : UInt6).toNat ∧ (0 : UInt6).toNat + (63 : UInt6).toNat ≤ 33) := by decide
/-- For FfootReturnsTheMask, FdescExportsTheAttributes and FieldResultsFitTheirWidth. -/
theorem witness_slots : (slots.slot 5).valid = true ∧ (slots.slot 4).valid = false ∧ (slots.slot 5).Inv ∧
    (slots.slot 4).Inv := by decide
theorem witness_FunpackExtracts : (slots.slot 4).valid = false ∧ (slots.slot 15).valid = true ∧
    (opnd slots (-1)).opnd.toInt < 0 ∧ 0xFFFFFFFF < (opnd slots 0x100000000).opnd.toInt ∧
    0 ≤ (opnd slots 0xFFFFFFFF).opnd.toInt ∧ (opnd slots 0xFFFFFFFF).opnd.toInt ≤ 0xFFFFFFFF ∧
    1 ≤ (slots.slot 15).lsb.toNat ∧ (slots.slot 15).lsb.toNat + (slots.slot 15).size.toNat ≤ 33 := by decide
theorem witness_FpackInserts : (slots.slot 4).valid = false ∧ (slots.slot 2).valid = true ∧
    (opnd slots (-1)).opnd.toInt < 0 ∧
    2 ^ (slots.slot 2).size.toNat - 1 < (opnd slots 0x100000000).opnd.toInt ∧
    0 ≤ (opnd slots 0xFFFFFFFF).opnd.toInt ∧
    (opnd slots 0xFFFFFFFF).opnd.toInt ≤ 2 ^ (slots.slot 2).size.toNat - 1 ∧
    1 ≤ (slots.slot 2).lsb.toNat ∧ (slots.slot 2).lsb.toNat + (slots.slot 2).size.toNat ≤ 33 := by decide
theorem witness_FeqComparesTwoFields :
    ((slots.slot 1).valid = true ∧ (slots.slot 6).valid = true ∧ (slots.slot 1).lsb = (slots.slot 6).lsb ∧
      (slots.slot 1).size = (slots.slot 6).size ∧ (slots.slot 1).name = (slots.slot 6).name) ∧
    ¬ ((slots.slot 9).valid = true ∧ (slots.slot 9).valid = true ∧ (slots.slot 9).lsb = (slots.slot 9).lsb ∧
      (slots.slot 9).size = (slots.slot 9).size ∧ (slots.slot 9).name = (slots.slot 9).name) := by decide
/-- For FootprintHasExactlySizeOnesFromLsb and UnpackOfPackIsTheValueAndConversely. -/
theorem witness_valid_slots : (slots.slot 2).Inv ∧ (slots.slot 2).valid = true ∧ (slots.slot 15).Inv ∧
    (slots.slot 15).valid = true ∧ (0xFFFFFFFF : Operand).toNat ≤ 2 ^ (slots.slot 2).size.toNat - 1 := by decide
theorem witness_FeqIsAnEquivalenceOnValidSlots : slots.Inv ∧ (slots.slot 1).valid = true ∧
    (slots.slot 6).valid = true ∧ (slots.slot 5).valid = true ∧
    respOf (exec (.feq 1 6) slots) = some ⟨0, 1, 0, 0, 0, 0⟩ ∧ (slots.slot 1).lsb ≠ (slots.slot 5).lsb := by decide
theorem witness_NoFieldCommandReadsAndWritesASlot : (slots.slot 1).valid = true ∧ (slots.slot 9).valid = false ∧
    (Instr.ffoot 1).isField = true ∧ ∃ t, exec (.ffoot 1) slots = .next t := ⟨by decide, by decide, rfl, _, rfl⟩
/-- For WordBuiltByOrUnpacksToItsParts and ParseOfBuildGivesThePartsAndTheParity. -/
theorem witness_parts :
    (∀ q ∈ [((1 : SlotIx), (0xFF : Operand)), (3, 2), (5, 0x7FFFF)], (slots.slot q.1).Inv ∧
      (slots.slot q.1).valid = true ∧ q.2.toNat ≤ 2 ^ (slots.slot q.1).size.toNat - 1 ∧
      (slots.slot q.1).mask &&& 0x80000000 = 0) ∧
    [((1 : SlotIx), (0xFF : Operand)), (3, 2), (5, 0x7FFFF)].Pairwise
      (fun p q => (slots.slot p.1).mask &&& (slots.slot q.1).mask = 0) := by
  refine ⟨fun q hq => ?_, by decide⟩
  simp only [List.mem_cons, List.not_mem_nil, or_false] at hq
  rcases hq with rfl | rfl | rfl <;> decide
theorem witness_FieldResultsFitTheirWidth : (slots.slot 2).Inv ∧
    (∃ t, exec (.funpack 2) (opnd slots 0xFFFFFFFF) = .next t ∧ t.resp.status = 0) ∧
    (∃ t, exec (.fpack 2) (opnd slots 0xFFFFFFFF) = .next t) ∧ ∃ t, exec (.ffoot 2) slots = .next t :=
  ⟨by decide, ⟨_, rfl, rfl⟩, ⟨_, rfl⟩, _, rfl⟩
theorem witness_ZeroWidthFieldsHoldOnlyZero : (1 ≤ (1 : UInt6).toNat ∧ (1 : UInt6).toNat ≤ 33) ∧
    (1 ≤ (33 : UInt6).toNat ∧ (33 : UInt6).toNat ≤ 33) ∧ (1 : Operand) ≠ 0 := by decide
theorem witness_ReadOnlyCommandsDoNotDisturbEachOther :
    (Instr.fpack 1).readOnly = true ∧ Instr.ppack.readOnly = true ∧
    (∃ t, exec (.fpack 1) { withPar 0b01 5 with opnd := 1 } = .next t) ∧ ∃ u, exec .ppack (withPar 0b01 5) = .next u :=
  ⟨rfl, rfl, ⟨_, rfl⟩, _, rfl⟩
theorem witness_ParityWordFollowsTheCount : onesBelow 31 0x65 % 2 = 0 ∧ onesBelow 31 0x7FFFFFFF % 2 = 1 := by decide
/-- For every statement that takes a legal convention, and for the illegal codes. -/
theorem witness_conventions : ((0b01 : ConvCode) = 0b01 ∨ (0b01 : ConvCode) = 0b10) ∧
    ((0b10 : ConvCode) = 0b01 ∨ (0b10 : ConvCode) = 0b10) ∧
    ((0b00 : ConvCode) = 0b00 ∨ (0b00 : ConvCode) = 0b11) ∧ ((0b11 : ConvCode) = 0b00 ∨ (0b11 : ConvCode) = 0b11) := by
  decide
theorem witness_HighBitsAreIgnored :
    (0xFFFFFFFF80000001 : Operand) &&& 0x7FFFFFFF = (1 : Operand) &&& 0x7FFFFFFF := by decide
/-- For PsetStoresThePayload, PgetReturnsThePayload and PpackReturnsTheParityWord. -/
theorem witness_parity_units : (withPar 0b01 5).par.pvalid = true ∧ (withPar 0b01 5).par.dvalid = true ∧
    (slots.setPar ⟨true, 0b01, false, 0⟩).par.pvalid = true ∧
    (slots.setPar ⟨true, 0b01, false, 0⟩).par.dvalid = false ∧ slots.par.pvalid = false := by decide
theorem witness_ParityResultIsBit32OrNothing : (withPar 0b01 5).par.Inv ∧
    (∃ t, exec .ppack (withPar 0b01 5) = .next t ∧ t.resp.status = 0) ∧
    ∃ t, exec (.pcomp 0b10) (withPar 0b01 5) = .next t ∧ t.resp.status = 0 :=
  ⟨by decide, ⟨_, rfl, rfl⟩, _, rfl, rfl⟩
theorem witness_ParityLifetimeKeepsConventionAndLastPayload :
    (∃ t, exec .pset (withPar 0b01 5) = .next t) ∧ (withPar 0b01 5).par.pvalid = true ∧
    (withPar 0b01 5).par.dvalid = true ∧ decode 0x03000007 = .ok (.pcfg 0b11) ∧
    ∀ e ∈ [HostEvent.command 0x0A 0, .command 0 0, .command 0x07 1],
      ∃ w o, e = .command w o ∧ decode w ≠ .ok .pset ∧
        ∀ c, decode w = .ok (.pcfg c) → c = 0b00 ∨ c = 0b11 := by
  refine ⟨⟨_, rfl⟩, by decide, by decide, by decide, ?_⟩
  intro e he
  simp only [List.mem_cons, List.not_mem_nil, or_false] at he
  rcases he with rfl | rfl | rfl <;> exact ⟨_, _, rfl, by decide, by decide⟩
theorem witness_AfterResetNothingIsConstructed : Instr.pget ∈ [Instr.ffoot 0, .funpack 0, .fpack 0, .fdesc 0, .pset,
    .pget, .ppack] := by decide
theorem witness_RepeatedCommandsAreIdempotent : (∀ c, Instr.fcfg 15 33 0 ≠ .pcfg c) ∧
    ∃ t, exec (.fcfg 15 33 0) slots = .next t := ⟨by decide, _, rfl⟩
theorem witness_OnlySuccessfulFcfgWritesASlot : (∃ t, exec (.fcfg 5 33 0) slots = .next t ∧ t.resp.status = 0) ∧
    (slots.slot 5).valid = true := ⟨⟨_, rfl, rfl⟩, by decide⟩
theorem witness_ParityUnitAccess : (∃ t, exec (.pcfg 0b01) slots = .next t) ∧ (∃ t, exec .pset slots = .next t) ∧
    (∃ t, exec .pget slots = .next t) ∧ (∃ t, exec (.pcomp 0b01) slots = .next t) ∧ (Instr.feq 0 0).isField = true :=
  ⟨⟨_, rfl⟩, ⟨_, rfl⟩, ⟨_, rfl⟩, ⟨_, rfl⟩, rfl⟩
theorem witness_OnlyResetUnconstructs : (∃ t, deliver (.command 0x00801011 0) (withPar 0b01 5) = .next t) ∧
    (∃ t, deliver .reset (withPar 0b01 5) = .next t) ∧
    ((withPar 0b01 5).slot 1).valid = true ∧ (withPar 0b01 5).par.pvalid = true :=
  ⟨⟨_, rfl⟩, ⟨_, rfl⟩, by decide, by decide⟩
theorem witness_EveryStepKeepsTheInvariants : (∃ t, step ((withPar 0b01 5).withFetchWord 32 0x00021011) = .next t) ∧
    ((withPar 0b01 5).withFetchWord 32 0x00021011).Inv ∧ (withPar 0b01 5).resp.Inv :=
  ⟨⟨_, rfl⟩, by decide, by decide⟩
theorem witness_EveryRunFromResetMeetsTheInvariants :
    let s := (observe [.command 0x004CB021 3, .command 0x01000007 0] State.reset).2
    (s.slot 2).valid = true ∧ (s.slot 3).valid = false ∧ s.par.pvalid = true ∧ s.par.dvalid = false ∧
    State.reset.par.pvalid = false := by decide
theorem witness_IgnoredOperandHasNoEffect :
    ∀ i ∈ [Instr.ffoot 1, .feq 1 2, .fdesc 1, .pcfg 0b01, .pget, .ppack], (respOf (exec i slots)).isSome = true := by
  decide
/-- For FailedCommandChangesOnlyTheResponse, StatusNamesItsCause and RangeErrorRecordsNameBoundAndValue. -/
theorem witness_port_commands :
    respOf (performPort (slots.drive 0x00000014 0x100)) = some ⟨2, 0, 0, 0x33, 0xFF, 0x100⟩ ∧
    respOf (performPort (slots.drive 0x00000013 0xFFFFFFFFFFFFFFFF)) =
      some ⟨2, 0, 0, 0x33, 0, 0xFFFFFFFFFFFFFFFF⟩ ∧
    respOf (performPort (slots.drive 0x00000012 0)) = some ⟨0, 0xFF, 0, 0, 0, 0⟩ ∧
    decode 0x00000014 = .ok (.fpack 1) := by decide
theorem witness_FirstErrorInTheOrderIsReported : IllegalWord 0xFFFFFFFF ∧ decode 0x0000000A = .ok .ppack ∧
    MissingInstance .ppack slots ∧ ¬ MissingInstance .ppack (slots.setPar ⟨true, 0b01, false, 0⟩) ∧
    MissingData .ppack (slots.setPar ⟨true, 0b01, false, 0⟩) ∧ ¬ MissingInstance .ppack (withPar 0b01 5) ∧
    ¬ MissingData .ppack (withPar 0b01 5) := by
  simp only [MissingInstance, MissingData]; decide
theorem witness_OnlyTheExactConventionStringsConstruct :
    (∃ t, exec (.pcfg (convCodeOf (.text "odd"))) slots = .next t) ∧
    (∃ t, exec (.pcfg (convCodeOf (.text "even"))) slots = .next t) ∧
    (∃ t, exec (.pcfg (convCodeOf .nonString)) slots = .next t) ∧
    ConvArg.nonString ≠ .text "odd" ∧ ConvArg.nonString ≠ .text "even" :=
  ⟨⟨_, rfl⟩, ⟨_, rfl⟩, ⟨_, rfl⟩, by decide, by decide⟩
theorem witness_FeqIsNameEqualityUnderInjectiveTags :
    ((fun n : Nat => BitVec.ofNat 64 n) 4 = (fun n : Nat => BitVec.ofNat 64 n) 5 → (4 : Nat) = 5) ∧ (0 : SlotIx) ≠ 15 := by
  decide
theorem witness_UnpresentableIntegersAreOutOfRange : (-2 ^ 63 ≤ (-2 ^ 63 : Int) ∧ (-2 ^ 63 : Int) < 2 ^ 63) ∧
    (-2 ^ 63 - 1 : Int) < -2 ^ 63 ∧ 2 ^ 63 ≤ (2 ^ 63 : Int) := by decide

end Sys2Proof.Tests
end

/-! # Proofs about the state

SUPPORT. The invariants of 10_state.md under the state's operations, what a command and a step read and keep, and
the statements of the family 10_state.md. -/

namespace Sys2Proof.Machine

/-! ## The invariants and the operations on the state (R14, R15, R18, R20) -/

theorem State.inv_setResp {s : State} (h : s.Inv) (r : Resp) : (s.setResp r).Inv := h

theorem State.inv_drive {s : State} (h : s.Inv) (c : Word) (o : Operand) : (s.drive c o).Inv := h

theorem State.inv_setProgram {s : State} (h : s.Inv) (es : List HostEvent) : (s.setProgram es).Inv := h

theorem State.inv_setPar {s : State} {p : Par} (h : s.Inv) (hp : p.Inv) : (s.setPar p).Inv := ⟨h.1, hp⟩

theorem State.inv_setSlot {s : State} {f : Slot} (h : s.Inv) (k : SlotIx) (hf : f.Inv) : (s.setSlot k f).Inv := by
  refine ⟨fun j => ?_, h.2⟩
  by_cases hj : j = k
  · subst hj; rwa [State.setSlot_slot_self]
  · rw [State.setSlot_slot_ne s k j f hj]; exact h.1 j

/-- The slot that a legal FCFG writes holds a legal field with its own mask (R14, R15, R63). -/
theorem Slot.inv_of_legalField {l z : UInt6} (h : legalField l z = true) (n : Operand) :
    Slot.Inv ⟨true, l, z, n, fieldMask l z⟩ := by
  obtain ⟨hl, hz⟩ := (legalField_iff l z).mp h
  exact ⟨fun _ => ⟨hl, hz, rfl⟩, by simp⟩

/-- The parity unit that a legal PCFG writes (R20, R83). -/
theorem Par.inv_of_legalConv {c : ConvCode} (h : legalConv c = true) : Par.Inv ⟨true, c, false, 0⟩ :=
  ⟨by simp, fun _ => (legalConv_iff c).mp h, fun _ => rfl⟩

/-- Storing a payload in a constructed parity unit (R20, R84). -/
theorem Par.inv_of_payload {p : Par} (h : p.Inv) (hv : p.pvalid = true) (o : Operand) :
    Par.Inv ⟨p.pvalid, p.conv, true, o⟩ :=
  ⟨by simp [hv], h.2.1, by simp⟩

theorem State.reset_inv : State.reset.Inv :=
  ⟨fun k => by rw [State.reset_slot]; decide, by decide⟩

theorem State.inv_applyReset (s : State) : (applyReset s).Inv := State.reset_inv

/-! ## The mask -/

/-- The mask of R15 in the form in which the statements write it. -/
theorem fieldMask_eq_ofNat (l z : UInt6) :
    fieldMask l z = BitVec.ofNat 32 ((2 ^ z.toNat - 1) * 2 ^ (l.toNat - 1)) := by
  simp [fieldMask, Nat.shiftLeft_eq]

/-! ## The form of a response (R24, R96, R99, R100) -/

theorem Resp.inv_ok (r a : Operand) : Resp.Inv ⟨0, r, a, 0, 0, 0⟩ := by simp [Resp.Inv]

theorem Resp.inv_zero : Resp.zero.Inv := Resp.inv_ok 0 0

/-- Only RangeError has information to record, and its code is 2. -/
theorem errorResp_inv (e : ErrorKind) : (errorResp e).Inv := by
  refine ⟨?_, fun _ => ⟨errorResp_result e, errorResp_aux e⟩, ?_⟩
  · rw [errorResp_status]; exact (errorCode_range e).2
  · cases e <;> simp [errorResp, errorCode]

/-! ## What a command keeps -/

theorem exec_keeps_inv {i : Instr} {s t : State} (h : exec i s = .next t) (hs : s.Inv) : t.Inv := by
  obtain ⟨e, rfl⟩ | ⟨r, a, rfl⟩ | ⟨k, l, z, -, hf, rfl⟩ | ⟨c, -, hc, rfl⟩ | ⟨-, hv, rfl⟩ := exec_next h
  · exact State.inv_setResp hs _
  · exact State.inv_setResp hs _
  · exact State.inv_setResp (State.inv_setSlot hs k (Slot.inv_of_legalField hf _)) _
  · exact State.inv_setResp (State.inv_setPar hs (Par.inv_of_legalConv hc)) _
  · exact State.inv_setResp (State.inv_setPar hs (Par.inv_of_payload hs.2 hv _)) _

/-- Every command leaves a response of the form of R99, whatever response stood before it. -/
theorem exec_resp_inv {i : Instr} {s t : State} (h : exec i s = .next t) : t.resp.Inv := by
  obtain ⟨e, rfl⟩ | ⟨r, a, rfl⟩ | ⟨k, l, z, -, -, rfl⟩ | ⟨c, -, -, rfl⟩ | ⟨-, -, rfl⟩ := exec_next h
  · exact errorResp_inv e
  · exact Resp.inv_ok r a
  all_goals exact Resp.inv_zero

/-- A command writes neither the port inputs nor the host's events (R23). -/
theorem exec_frame {i : Instr} {s t : State} (h : exec i s = .next t) :
    t.cmd = s.cmd ∧ t.opnd = s.opnd ∧ t.program = s.program := by
  obtain ⟨e, rfl⟩ | ⟨r, a, rfl⟩ | ⟨k, l, z, -, -, rfl⟩ | ⟨c, -, -, rfl⟩ | ⟨-, -, rfl⟩ := exec_next h <;> simp

/-- A command leaves a slot alone or is the FCFG that constructs it, with OK (R16, R17). -/
theorem exec_slot {i : Instr} {s t : State} (h : exec i s = .next t) (k : SlotIx) :
    t.slot k = s.slot k ∨
      ∃ l z, i = .fcfg k l z ∧ t.resp.status = 0 ∧ t.slot k = ⟨true, l, z, s.opnd, fieldMask l z⟩ := by
  obtain ⟨e, rfl⟩ | ⟨r, a, rfl⟩ | ⟨j, l, z, rfl, -, rfl⟩ | ⟨c, -, -, rfl⟩ | ⟨-, -, rfl⟩ := exec_next h
  case inr.inr.inl =>
    by_cases hk : k = j
    · subst hk; exact .inr ⟨l, z, rfl, rfl, by simp⟩
    · exact .inl (by simp [State.setSlot_slot_ne s j k _ hk])
  all_goals exact .inl (by simp)

/-- Only PCFG and PSET write the parity unit (R21). -/
theorem exec_par {i : Instr} {s t : State} (h : exec i s = .next t) (hc : ∀ c, i ≠ .pcfg c) (hp : i ≠ .pset) :
    t.par = s.par := by
  obtain ⟨e, rfl⟩ | ⟨r, a, rfl⟩ | ⟨k, l, z, -, -, rfl⟩ | ⟨c, rfl, -, -⟩ | ⟨rfl, -, -⟩ := exec_next h
  case inr.inr.inr.inl => exact absurd rfl (hc c)
  case inr.inr.inr.inr => exact absurd rfl hp
  all_goals simp

/-! ## Single commands: what they do once their guards are decided, and what they leave (R63, R69, R83, R84) -/

theorem exec_fcfg_of_legal {l z : UInt6} (h : legalField l z = true) (k : SlotIx) (s : State) :
    exec (.fcfg k l z) s = .next ((s.setSlot k ⟨true, l, z, s.opnd, fieldMask l z⟩).setResp Resp.zero) :=
  if_pos h

theorem exec_feq (a b : SlotIx) (s : State) :
    exec (.feq a b) s =
      .next (s.setResp ⟨0, if fieldsEqual (s.slot a) (s.slot b) then 1 else 0, 0, 0, 0, 0⟩) := rfl

theorem exec_pcfg_of_legal {c : ConvCode} (h : legalConv c = true) (s : State) :
    exec (.pcfg c) s = .next ((s.setPar ⟨true, c, false, 0⟩).setResp Resp.zero) := if_pos h

theorem exec_pcfg_of_illegal {c : ConvCode} (h : ¬ legalConv c = true) (s : State) :
    exec (.pcfg c) s = .next (s.setResp (errorResp .conventionError)) := if_neg h

theorem exec_pset_of_constructed {s : State} (h : s.par.pvalid = true) :
    exec .pset s = .next ((s.setPar { s.par with dvalid := true, pdata := s.opnd }).setResp Resp.zero) := if_pos h

theorem exec_pset_of_missing {s : State} (h : ¬ s.par.pvalid = true) :
    exec .pset s = .next (s.setResp (errorResp .noInstanceError)) := if_neg h

/-- What PSET writes, told by the STATUS it reports (R84). -/
theorem exec_pset_par {s t : State} (h : exec .pset s = .next t) :
    t.par = if t.resp.status = 0 then { s.par with dvalid := true, pdata := s.opnd } else s.par := by
  by_cases hv : s.par.pvalid = true
  · rw [exec_pset_of_constructed hv] at h; cases h; rfl
  · rw [exec_pset_of_missing hv] at h; cases h; rfl

/-- What PCFG writes, told by the STATUS it reports (R83). -/
theorem exec_pcfg_par {c : ConvCode} {s t : State} (h : exec (.pcfg c) s = .next t) :
    t.par = if t.resp.status = 0 then ⟨true, c, false, 0⟩ else s.par := by
  by_cases hc : legalConv c = true
  · rw [exec_pcfg_of_legal hc] at h; cases h; rfl
  · rw [exec_pcfg_of_illegal hc] at h; cases h; rfl

/-- A legal FCFG constructs its slot (R63). -/
theorem exec_fcfg_slot_self {s t : State} {k : SlotIx} {l z : UInt6}
    (hf : 1 ≤ l.toNat ∧ l.toNat + z.toNat ≤ 33) (h : exec (.fcfg k l z) s = .next t) :
    t.slot k = ⟨true, l, z, s.opnd, fieldMask l z⟩ := by
  rw [exec_fcfg_of_legal ((legalField_iff l z).mpr hf)] at h; cases h; simp

/-- FCFG leaves every other slot alone (R16). -/
theorem exec_fcfg_slot_ne {s t : State} {k j : SlotIx} {l z : UInt6}
    (h : exec (.fcfg k l z) s = .next t) (hj : j ≠ k) : t.slot j = s.slot j := by
  obtain hs | ⟨l', z', hi, -⟩ := exec_slot h j
  · exact hs
  · cases hi; exact absurd rfl hj

/-- FEQ's result tells equal slots from different ones (R69). -/
theorem exec_feq_result {a b : SlotIx} {s t : State} (h : exec (.feq a b) s = .next t) :
    t.resp.status = 0 ∧ (t.resp.result = 1 ↔ fieldsEqual (s.slot a) (s.slot b) = true) ∧
      (t.resp.result = 0 ↔ ¬ fieldsEqual (s.slot a) (s.slot b) = true) := by
  rw [exec_feq] at h; cases h
  by_cases he : fieldsEqual (s.slot a) (s.slot b) = true <;> simp [he]

/-! ## What a command reads

`mapNext` changes the next state that an outcome holds. A command that does not read the part of the state that `f`
changes commutes with it: `exec i (f s) = mapNext f (exec i s)`. -/

/-- The outcome with its next state changed by `f`. -/
def mapNext (f : State → State) : Result → Result
  | .next t => .next (f t)
  | .fault r => .fault r
  | .refused r => .refused r

@[simp] theorem mapNext_next (f : State → State) (t : State) : mapNext f (.next t) = .next (f t) := rfl

/-- Every command ends in a next state (R58, R128). -/
theorem exec_total (i : Instr) (s : State) : ∃ t, exec i s = .next t := by
  cases i <;>
    simp only [exec, execFcfg, execFfoot, execFunpack, execFpack, execFeq, execFdesc, execPcfg, execPset, execPget,
      execPpack, execPcomp, respondOk_eq, raise_eq] <;>
    split_ifs <;> exact ⟨_, rfl⟩

/-- The response registers are write-only for the commands: each meaning replaces the whole record (R25, R26). -/
theorem exec_setResp (i : Instr) (s : State) (r : Resp) : exec i (s.setResp r) = exec i s := by
  cases i <;> rfl

/-- No command sees the events that the host has still to present (R31). -/
theorem exec_setProgram (i : Instr) (s : State) (es : List HostEvent) :
    exec i (s.setProgram es) = mapNext (·.setProgram es) (exec i s) := by
  cases i <;>
    simp only [exec, execFcfg, execFfoot, execFunpack, execFpack, execFeq, execFdesc, execPcfg, execPset, execPget,
      execPpack, execPcomp, apply_ite (mapNext _)] <;> rfl

/-- The Field commands and PCOMP do not see the parity unit (R21). -/
theorem exec_setPar {i : Instr} (hi : i.isField = true ∨ ∃ c, i = .pcomp c) (s : State) (p : Par) :
    exec i (s.setPar p) = mapNext (·.setPar p) (exec i s) := by
  cases i
  case pcfg | pset | pget | ppack => simp [Instr.isField] at hi
  all_goals
    simp only [exec, execFcfg, execFfoot, execFunpack, execFpack, execFeq, execFdesc, execPcomp,
      apply_ite (mapNext _)]
    rfl

/-- PGET does not see the convention (R21). -/
theorem exec_pget_setConv (s : State) (c : ConvCode) :
    exec .pget (s.setPar { s.par with conv := c }) =
      mapNext (·.setPar { s.par with conv := c }) (exec .pget s) := by
  simp only [exec, execPget, apply_ite (mapNext _)]; rfl

/-! ## The port, a host event and a step -/

/-- What the command port can do: perform the decoded command, or raise IllegalCommand (R54, R58). -/
theorem performPort_next {s t : State} (h : performPort s = .next t) :
    (∃ i, exec i s = .next t) ∨ t = s.setResp (errorResp .illegalCommand) := by
  cases hd : decode s.cmd with
  | ok i => rw [performPort_of_ok hd] at h; exact .inl ⟨i, h⟩
  | error e => rw [performPort_of_error hd] at h; exact .inr (raise_next h)

theorem performPort_total (s : State) : ∃ t, performPort s = .next t := by
  cases hd : decode s.cmd with
  | ok i => rw [performPort_of_ok hd]; exact exec_total i s
  | error e => rw [performPort_of_error hd]; exact ⟨_, rfl⟩

theorem performPort_setProgram (s : State) (es : List HostEvent) :
    performPort (s.setProgram es) = mapNext (·.setProgram es) (performPort s) := by
  cases hd : decode s.cmd with
  | ok i => rw [performPort_of_ok hd, performPort_of_ok (by exact hd), exec_setProgram]
  | error e => rw [performPort_of_error hd, performPort_of_error (by exact hd)]; rfl

theorem performPort_keeps_inv {s t : State} (h : performPort s = .next t) (hs : s.Inv) : t.Inv := by
  obtain ⟨i, hi⟩ | rfl := performPort_next h
  · exact exec_keeps_inv hi hs
  · exact State.inv_setResp hs _

theorem performPort_resp_inv {s t : State} (h : performPort s = .next t) : t.resp.Inv := by
  obtain ⟨i, hi⟩ | rfl := performPort_next h
  · exact exec_resp_inv hi
  · exact errorResp_inv _

theorem performPort_program {s t : State} (h : performPort s = .next t) : t.program = s.program := by
  obtain ⟨i, hi⟩ | rfl := performPort_next h
  · obtain ⟨-, -, hp⟩ := exec_frame hi
    exact hp
  · rfl

theorem deliver_command (c : Word) (o : Operand) (s : State) :
    deliver (.command c o) s = performPort (s.drive c o) := rfl

theorem deliver_reset (s : State) : deliver .reset s = .next (applyReset s) := rfl

theorem deliver_total (e : HostEvent) (s : State) : ∃ t, deliver e s = .next t := by
  cases e with
  | command c o => exact performPort_total _
  | reset => exact ⟨_, rfl⟩

theorem deliver_setProgram (e : HostEvent) (s : State) (es : List HostEvent) :
    deliver e (s.setProgram es) = mapNext (·.setProgram es) (deliver e s) := by
  cases e with
  | command c o => exact performPort_setProgram (s.drive c o) es
  | reset => rfl

theorem deliver_keeps_inv {e : HostEvent} {s t : State} (h : deliver e s = .next t) (hs : s.Inv) : t.Inv := by
  cases e with
  | command c o => exact performPort_keeps_inv h (State.inv_drive hs c o)
  | reset => cases h; exact State.inv_applyReset s

theorem deliver_resp_inv {e : HostEvent} {s t : State} (h : deliver e s = .next t) : t.resp.Inv := by
  cases e with
  | command c o => exact performPort_resp_inv h
  | reset => cases h; exact Resp.inv_zero

theorem deliver_program {e : HostEvent} {s t : State} (h : deliver e s = .next t) : t.program = s.program := by
  cases e with
  | command c o => exact performPort_program (s := s.drive c o) h
  | reset => cases h; rfl

/-- What a step can do: nothing, or deliver the host's next event (R31, R115). -/
theorem step_next {s t : State} (h : step s = .next t) :
    t = s ∨ ∃ e es, s.program = e :: es ∧ deliver e (s.setProgram es) = .next t := by
  cases hp : s.program with
  | nil => simp only [step, nextEvent, hp, Host.Outcome.next.injEq] at h; exact .inl h.symm
  | cons e es => exact .inr ⟨e, es, rfl, (nextEvent_cons hp).symm.trans h⟩

/-! ## Runs and observations (R33, R129) -/

/-- An observation of a list in two parts goes on from the first part's final state. -/
theorem observe_append (es fs : List HostEvent) (s : State) :
    observe (es ++ fs) s =
      ((observe es s).1 ++ (observe fs (observe es s).2).1, (observe fs (observe es s).2).2) := by
  induction es generalizing s with
  | nil => rfl
  | cons e es ih =>
    obtain ⟨t, ht⟩ := deliver_total e s
    simp [observe_cons _ ht, ih]

theorem observe_keeps_inv (es : List HostEvent) {s : State} (hs : s.Inv) : (observe es s).2.Inv := by
  induction es generalizing s with
  | nil => exact hs
  | cons e es ih =>
    obtain ⟨t, ht⟩ := deliver_total e s
    rw [observe_cons _ ht]
    exact ih (deliver_keeps_inv ht hs)

/-- One response for every command, none for a reset (R33). -/
theorem observe_length (es : List HostEvent) (s : State) :
    (observe es s).1.length = (es.filter fun e => e != .reset).length := by
  induction es generalizing s with
  | nil => rfl
  | cons e es ih =>
    obtain ⟨t, ht⟩ := deliver_total e s
    rw [observe_cons _ ht]
    cases e <;> simp [responsesOf, ih, Nat.add_comm]

/-- After a last command, its response is the last one observed and stands in the final state (R33). -/
theorem observe_getLast_of_command (es : List HostEvent) (c : Word) (o : Operand) (s : State) :
    (observe (es ++ [.command c o]) s).1.getLast? = some (observe (es ++ [.command c o]) s).2.resp := by
  obtain ⟨t, ht⟩ := deliver_total (.command c o) (observe es s).2
  rw [observe_append, observe_cons [] ht]
  simp [responsesOf, observe]

theorem run_succ_of_step {M : Host.Core} {s t : M.State} (h : M.step s = .next t) (k : Nat) :
    M.run (k + 1) s = M.run k t := by
  rw [Host.Core.run, h]

/-- Each step delivers one event, which neither reads nor writes the events behind it. -/
theorem core_run_setProgram (es : List HostEvent) {s : State} (hs : s.program = []) :
    core.run es.length (s.setProgram es) = .next (observe es s).2 := by
  induction es generalizing s with
  | nil => cases s; cases hs; rfl
  | cons e es ih =>
    obtain ⟨t, ht⟩ := deliver_total e s
    have hstep : core.step (s.setProgram (e :: es)) = .next (t.setProgram es) := by
      calc step (s.setProgram (e :: es))
          = deliver e (s.setProgram es) := nextEvent_cons rfl
        _ = .next (t.setProgram es) := by rw [deliver_setProgram, ht, mapNext_next]
    rw [List.length_cons, run_succ_of_step hstep, ih ((deliver_program ht).trans hs), observe_cons _ ht]

/-! ## The host's duties (R32) -/

/-- Every argument but the two exact strings maps to the code that names no convention (R32). -/
theorem convCodeOf_of_ne {a : ConvArg} (ho : a ≠ .text "odd") (he : a ≠ .text "even") : convCodeOf a = 0b00 := by
  cases a with
  | text x =>
    have hxo : x ≠ "odd" := fun h => ho (by rw [h])
    have hxe : x ≠ "even" := fun h => he (by rw [h])
    simp [convCodeOf, hxo, hxe]
  | nonString => rfl

/-- The integers that the port can carry (R7, R32). -/
theorem presentable_iff (x : Int) : presentable x = true ↔ -2 ^ 63 ≤ x ∧ x < 2 ^ 63 := by
  simp [presentable]

theorem hostReport_of_presentable {x : Int} (h : -2 ^ 63 ≤ x ∧ x < 2 ^ 63) (f : Slot) (up : Int) :
    hostReport f up x = none :=
  if_pos ((presentable_iff x).mpr h)

theorem hostReport_of_below {x : Int} (h : x < -2 ^ 63) (f : Slot) (up : Int) :
    hostReport f up x = some ⟨f.name, 0, x⟩ := by
  have hp : ¬ presentable x = true := by rw [presentable_iff]; omega
  rw [hostReport, if_neg hp, if_pos (by omega)]

theorem hostReport_of_above {x : Int} (h : 2 ^ 63 ≤ x) (f : Slot) (up : Int) :
    hostReport f up x = some ⟨f.name, up, x⟩ := by
  have hp : ¬ presentable x = true := by rw [presentable_iff]; omega
  rw [hostReport, if_neg hp, if_neg (by omega)]

/-- A size of six bits keeps FPACK's bound within the port's integers (R66, R75). -/
theorem packBound_lt (f : Slot) : packBound f < 2 ^ 63 := by
  have hz : f.size.toNat ≤ 63 := Nat.le_of_lt_succ f.size.isLt
  have hp : (2 : Int) ^ f.size.toNat ≤ 2 ^ 63 := pow_le_pow_right₀ (by decide) hz
  exact Int.sub_one_lt_of_le hp

/-! ## The statements -/

/-- Settles O47: a step delivers an event or nothing, and every event keeps the invariants. -/
theorem everyStepKeepsTheInvariants : Obligations.EveryStepKeepsTheInvariants := by
  intro s t h
  obtain rfl | ⟨e, es, -, hd⟩ := step_next h
  · exact ⟨id, id⟩
  · exact ⟨fun hs => deliver_keeps_inv hd (State.inv_setProgram hs es), fun _ => deliver_resp_inv hd⟩

/-- Settles O12, by induction on the host's events. -/
theorem runOfAProgramIsItsObservation : Obligations.RunOfAProgramIsItsObservation := fun s es hs =>
  ⟨core_run_setProgram es hs, observe_length es s, fun w o => observe_getLast_of_command es w o s⟩

/-- Settles O44, from the two things that a command can do to a slot. -/
theorem onlySuccessfulFcfgWritesASlot : Obligations.OnlySuccessfulFcfgWritesASlot := by
  refine ⟨fun s => ⟨_, deliver_reset s, fun k => by rw [applyReset_slot]; rfl⟩, fun s t i h => ?_⟩
  refine ⟨fun k => ?_, fun k hk => ?_, exec_frame h⟩
  · simpa only [fieldMask_eq_ofNat] using exec_slot h k
  · obtain hs | ⟨l, z, -, -, hs⟩ := exec_slot h k
    · rw [hs, hk]
    · rw [hs]

/-- Settles O45: the writes from the two writers' rules, the reads from the commuting lemmas. -/
theorem parityUnitAccess : Obligations.ParityUnitAccess := by
  intro s t i h
  refine ⟨exec_par h, ?_, ?_, fun hi p => ?_, ?_⟩
  · rintro rfl; exact exec_pset_par h
  · rintro c rfl; exact exec_pcfg_par h
  · have hp := exec_setPar hi s p
    rwa [h] at hp
  · rintro rfl c
    have hc := exec_pget_setConv s c
    rwa [h] at hc

/-- Settles O49: the invariants hold at reset and every event keeps them. -/
theorem everyRunFromResetMeetsTheInvariants : Obligations.EveryRunFromResetMeetsTheInvariants := by
  intro es s
  obtain ⟨hslot, hpar⟩ : s.Inv := observe_keeps_inv es State.reset_inv
  refine ⟨fun k => ⟨fun hv => ?_, (hslot k).2⟩, hpar⟩
  obtain ⟨hl, hz, hm⟩ := (hslot k).1 hv
  exact ⟨hl, hz, by rw [hm, fieldMask_toNat ⟨hl, hz⟩]⟩

/-- Settles O57: FEQ compares the two slots as FCFG wrote them, and equal tags are equal names. -/
theorem feqIsNameEqualityUnderInjectiveTags : Obligations.FeqIsNameEqualityUnderInjectiveTags := by
  intro ν tagOf n m s a b l z l' z' htag hab hf hf'
  obtain ⟨t, ht⟩ := exec_total (.fcfg a l z) { s with opnd := tagOf n }
  obtain ⟨u, hu⟩ := exec_total (.fcfg b l' z') { t with opnd := tagOf m }
  obtain ⟨v, hv⟩ := exec_total (.feq a b) u
  have hua : u.slot a = ⟨true, l, z, tagOf n, fieldMask l z⟩ := by
    rw [exec_fcfg_slot_ne hu hab]; exact exec_fcfg_slot_self hf ht
  have hub : u.slot b = ⟨true, l', z', tagOf m, fieldMask l' z'⟩ := exec_fcfg_slot_self hf' hu
  have htags : tagOf n = tagOf m ↔ n = m := ⟨htag, congrArg tagOf⟩
  have heq : fieldsEqual (u.slot a) (u.slot b) = true ↔ l = l' ∧ z = z' ∧ n = m := by
    rw [fieldsEqual_iff, hua, hub, ← htags]; simp
  refine ⟨t, u, v, ht, hu, hv, ?_⟩
  rw [← heq]
  exact exec_feq_result hv

/-- Settles O58, from the host's report in the three ranges and the bound on FPACK's bound. -/
theorem unpresentableIntegersAreOutOfRange : Obligations.UnpresentableIntegersAreOutOfRange := fun f x =>
  ⟨fun h => ⟨hostReport_of_presentable h f _, hostReport_of_presentable h f _⟩,
    fun h => ⟨hostReport_of_below h f _, hostReport_of_below h f _⟩,
    fun h => ⟨by omega, (packBound_lt f).trans_le h, hostReport_of_above h f _, hostReport_of_above h f _⟩⟩

/-- Settles O7: the step delivers the event, and the port performs what the driven word decodes to. -/
theorem stepRunsTheDecodedCommand : Obligations.StepRunsTheDecodedCommand := by
  intro s w o es hp
  have hstep : step s = performPort ((s.setProgram es).drive w o) := by
    rw [step, nextEvent_cons hp, deliver_command]
  refine ⟨fun i hi => ?_, fun e he => ?_⟩
  · rw [hstep, performPort_of_ok (i := i) hi]; rfl
  · rw [hstep, performPort_of_error (e := e) he]; rfl

/-- Settles O10, from the value of a slot after reset. -/
theorem resetHoldsTheSpecsValues : Obligations.ResetHoldsTheSpecsValues := by
  refine ⟨fun k => ?_, rfl, rfl⟩
  simp [Slot.empty]

/-- Settles O48. -/
theorem resetMeetsTheInvariants : Obligations.ResetMeetsTheInvariants := ⟨State.reset_inv, Resp.inv_zero⟩

/-- Settles O50: every meaning replaces the response without reading it. -/
theorem noCommandReadsTheResponse : Obligations.NoCommandReadsTheResponse := fun s i r => exec_setResp i s r

/-- Settles O56, from PCFG's rule for the code that each argument maps to. -/
theorem onlyTheExactConventionStringsConstruct : Obligations.OnlyTheExactConventionStringsConstruct := by
  intro s t a h
  refine ⟨?_, ?_, fun ho he => ?_⟩
  · rintro rfl
    rw [exec_pcfg_of_legal (by decide)] at h; cases h; exact ⟨rfl, rfl⟩
  · rintro rfl
    rw [exec_pcfg_of_legal (by decide)] at h; cases h; exact ⟨rfl, rfl⟩
  · have hc := convCodeOf_of_ne ho he
    rw [hc, exec_pcfg_of_illegal (by decide)] at h; cases h; exact ⟨hc, rfl, rfl⟩

end Sys2Proof.Machine

/-! # Proofs about a repeated command

SUPPORT. Writing a part of the state twice, and the statement of the family 20_memory.md. -/

namespace Sys2Proof.Machine

/-! ## Writing the same part twice -/

@[simp] theorem State.setSlot_setSlot (s : State) (k : SlotIx) (f g : Slot) :
    (s.setSlot k f).setSlot k g = s.setSlot k g := by
  simp [State.setSlot]

@[simp] theorem State.setPar_setPar (s : State) (p q : Par) : (s.setPar p).setPar q = s.setPar q := rfl

/-! ## Presenting a command again (R43) -/

/-- The immediate repetition of any command, PCFG included, finds its own writes in place: what it writes depends on
the command, on OPND and on guards that it keeps, and the response is not read. -/
theorem exec_repeat {i : Instr} {s t : State} (h : exec i s = .next t) : exec i t = .next t := by
  obtain ⟨e, rfl⟩ | ⟨r, a, rfl⟩ | ⟨k, l, z, rfl, hf, rfl⟩ | ⟨c, rfl, hc, rfl⟩ | ⟨rfl, hv, rfl⟩ := exec_next h
  · rwa [exec_setResp]
  · rwa [exec_setResp]
  · rw [exec_setResp, exec_fcfg_of_legal hf, State.setSlot_opnd, State.setSlot_setSlot]
  · rw [exec_setResp, exec_pcfg_of_legal hc, State.setPar_setPar]
  · rw [exec_setResp]; exact exec_pset_of_constructed (s := s.setPar _) hv

/-- Settles O43: an immediate repetition changes nothing, and a PCFG after a PSET starts an instance without data. -/
theorem repeatedCommandsAreIdempotent : Obligations.RepeatedCommandsAreIdempotent := by
  refine ⟨fun s t i _ h => exec_repeat h, fun s c p hc => ?_⟩
  have hl : legalConv c = true := (legalConv_iff c).mpr hc
  exact ⟨_, _, _, exec_pcfg_of_legal hl s, exec_pset_of_constructed rfl, rfl, exec_pcfg_of_legal hl _, rfl⟩

end Sys2Proof.Machine

/-! # Proofs about the command word

SUPPORT. The word of 30_encoding.md R50 field by field, the row of R53 as a condition on the fields, and the
statements of the family 30_encoding.md about decoding and encoding. -/

namespace Sys2Proof

/-! ## The word as its fields (R50) -/

section
variable (rsv : BitVec 6) (conv : ConvCode) (size lsb : UInt6) (sb sa : SlotIx) (op : BitVec 4)

@[simp] theorem cmdOp_cmdWord : cmdOp (cmdWord rsv conv size lsb sb sa op) = op := by
  obtain ⟨h, -⟩ := cmdWord_fields rsv conv size lsb sb sa op
  exact h

@[simp] theorem cmdSa_cmdWord : cmdSa (cmdWord rsv conv size lsb sb sa op) = sa := by
  obtain ⟨-, h, -⟩ := cmdWord_fields rsv conv size lsb sb sa op
  exact h

@[simp] theorem cmdSb_cmdWord : cmdSb (cmdWord rsv conv size lsb sb sa op) = sb := by
  obtain ⟨-, -, h, -⟩ := cmdWord_fields rsv conv size lsb sb sa op
  exact h

@[simp] theorem cmdLsb_cmdWord : cmdLsb (cmdWord rsv conv size lsb sb sa op) = lsb := by
  obtain ⟨-, -, -, h, -⟩ := cmdWord_fields rsv conv size lsb sb sa op
  exact h

@[simp] theorem cmdSize_cmdWord : cmdSize (cmdWord rsv conv size lsb sb sa op) = size := by
  obtain ⟨-, -, -, -, h, -⟩ := cmdWord_fields rsv conv size lsb sb sa op
  exact h

@[simp] theorem cmdConv_cmdWord : cmdConv (cmdWord rsv conv size lsb sb sa op) = conv := by
  obtain ⟨-, -, -, -, -, h, -⟩ := cmdWord_fields rsv conv size lsb sb sa op
  exact h

@[simp] theorem cmdRsv_cmdWord : cmdRsv (cmdWord rsv conv size lsb sb sa op) = rsv := by
  obtain ⟨-, -, -, -, -, -, h⟩ := cmdWord_fields rsv conv size lsb sb sa op
  exact h

end

/-- A word is the sum of its seven fields at their places. -/
theorem toNat_eq_sum_fields (w : Word) :
    w.toNat = (cmdOp w).toNat + (cmdSa w).val * 2 ^ 4 + (cmdSb w).val * 2 ^ 8 + (cmdLsb w).toNat * 2 ^ 12 +
      (cmdSize w).toNat * 2 ^ 18 + (cmdConv w).toNat * 2 ^ 24 + (cmdRsv w).toNat * 2 ^ 26 := by
  have hw := w.isLt
  rw [cmdOp_toNat, cmdSa_val, cmdSb_val, cmdLsb_toNat, cmdSize_toNat, cmdConv_toNat, cmdRsv_toNat]
  omega

/-- Laying out the fields of a word gives the word. -/
theorem cmdWord_of_fields (w : Word) :
    cmdWord (cmdRsv w) (cmdConv w) (cmdSize w) (cmdLsb w) (cmdSb w) (cmdSa w) (cmdOp w) = w := by
  apply BitVec.eq_of_toNat_eq
  rw [cmdWord_toNat, toNat_eq_sum_fields w]
  omega

/-- A word is given by its fields. -/
theorem cmdWord_eq_iff {rsv : BitVec 6} {conv : ConvCode} {size lsb : UInt6} {sb sa : SlotIx} {op : BitVec 4}
    {w : Word} : cmdWord rsv conv size lsb sb sa op = w ↔
      rsv = cmdRsv w ∧ conv = cmdConv w ∧ size = cmdSize w ∧ lsb = cmdLsb w ∧ sb = cmdSb w ∧
        sa = cmdSa w ∧ op = cmdOp w := by
  constructor
  · rintro rfl; simp
  · rintro ⟨rfl, rfl, rfl, rfl, rfl, rfl, rfl⟩
    exact cmdWord_of_fields w

/-- Masking a word masks each of its fields. -/
theorem and_cmdWord (w : Word) (rsv : BitVec 6) (conv : ConvCode) (size lsb : UInt6) (sb sa : SlotIx)
    (op : BitVec 4) : w &&& cmdWord rsv conv size lsb sb sa op =
      cmdWord (cmdRsv w &&& rsv) (cmdConv w &&& conv) (cmdSize w &&& size) (cmdLsb w &&& lsb)
        (cmdSb w &&& sb) (cmdSa w &&& sa) (cmdOp w &&& op) := by
  have hslot : ∀ a b : SlotIx, BitVec.ofFin (w := 4) (a &&& b) = .ofFin a &&& .ofFin b := by decide
  conv_lhs => rw [← cmdWord_of_fields w]
  simp only [cmdWord, hslot, ← BitVec.and_append]

/-! A field's mask is all ones or zero: it keeps the field or drops it. -/

@[simp] theorem and_three (x : BitVec 2) : x &&& 3#2 = x := by revert x; decide
@[simp] theorem and_fifteen (x : BitVec 4) : x &&& 15#4 = x := by revert x; decide
@[simp] theorem and_sixtyThree (x : BitVec 6) : x &&& 63#6 = x := by revert x; decide
@[simp] theorem slotIx_and_fifteen (k : SlotIx) : k &&& 15 = k := by revert k; decide
@[simp] theorem slotIx_and_zero (k : SlotIx) : k &&& 0 = 0 := by revert k; decide

/-! ## Encoding and decoding -/

/-- The command with every operand field that it has read from `w`. -/
def Instr.withOperands (i : Instr) (w : Word) : Instr :=
  match i with
  | .fcfg _ _ _ => .fcfg (cmdSa w) (cmdLsb w) (cmdSize w)
  | .ffoot _ => .ffoot (cmdSa w)
  | .funpack _ => .funpack (cmdSa w)
  | .fpack _ => .fpack (cmdSa w)
  | .feq _ _ => .feq (cmdSa w) (cmdSb w)
  | .fdesc _ => .fdesc (cmdSa w)
  | .pcfg _ => .pcfg (cmdConv w)
  | .pset => .pset
  | .pget => .pget
  | .ppack => .ppack
  | .pcomp _ => .pcomp (cmdConv w)

/-- A row's mask field by field: all ones where the row fixes the field, zero where it is an operand (R53). -/
def Instr.maskFields : Instr → Word
  | .fcfg _ _ _ => cmdWord 63 3 0 0 15 0 15
  | .ffoot _ | .funpack _ | .fpack _ | .fdesc _ => cmdWord 63 3 63 63 15 0 15
  | .feq _ _ => cmdWord 63 3 63 63 0 0 15
  | .pcfg _ | .pcomp _ => cmdWord 63 0 63 63 15 15 15
  | .pset | .pget | .ppack => cmdWord 63 3 63 63 15 15 15

theorem Instr.row_mask (i : Instr) : i.row.mask = i.maskFields := by cases i <;> rfl

/-- A row's match value is its opcode, with every other field zero. -/
theorem Instr.row_pattern (i : Instr) : i.row.pattern = cmdWord 0 0 0 0 0 0 (cmdOp (encode i)) := by
  cases i <;> simp only [encode, cmdOp_cmdWord] <;> rfl

/-- Every command's word meets the command's row. -/
theorem encode_row : (i : Instr) → encode i &&& i.row.mask = i.row.pattern
  | .fcfg sa lsb size => Laws.EncodesItsRow.fcfg sa lsb size
  | .ffoot sa => Laws.EncodesItsRow.ffoot sa
  | .funpack sa => Laws.EncodesItsRow.funpack sa
  | .fpack sa => Laws.EncodesItsRow.fpack sa
  | .feq sa sb => Laws.EncodesItsRow.feq sa sb
  | .fdesc sa => Laws.EncodesItsRow.fdesc sa
  | .pcfg conv => Laws.EncodesItsRow.pcfg conv
  | .pset => Laws.EncodesItsRow.pset
  | .pget => Laws.EncodesItsRow.pget
  | .ppack => Laws.EncodesItsRow.ppack
  | .pcomp conv => Laws.EncodesItsRow.pcomp conv

/-- A word that meets a row is the word of the row's command with the operands that stand in it: the row fixes
every other field, and fixes it as `encode` writes it. -/
theorem encode_of_row {i : Instr} {w : Word} (h : w &&& i.row.mask = i.row.pattern) :
    encode (i.withOperands w) = w := by
  rw [i.row_mask, i.row_pattern, Instr.maskFields.eq_def] at h
  cases i <;> simp_all [encode, Instr.withOperands, and_cmdWord, cmdWord_eq_iff]

theorem readOperands_encode (i : Instr) : readOperands (encode i) = some i := by
  cases i <;> simp [encode, readOperands]

theorem withOperands_of_readOperands {w : Word} {i : Instr} (h : readOperands w = some i) :
    i.withOperands w = i := by
  unfold readOperands at h
  split at h <;> cases h <;> rfl

theorem decode_encode (i : Instr) : decode (encode i) = .ok i :=
  (decode_eq_ok_iff _ i).mpr ⟨readOperands_encode i, encode_row i⟩

theorem encode_of_decode {w : Word} {i : Instr} (h : decode w = .ok i) : encode i = w := by
  obtain ⟨hi, hrow⟩ := (decode_eq_ok_iff w i).mp h
  rw [← withOperands_of_readOperands hi]
  exact encode_of_row hrow

theorem row_of_decode {w : Word} {i : Instr} (h : decode w = .ok i) : w &&& i.row.mask = i.row.pattern := by
  obtain ⟨-, hrow⟩ := (decode_eq_ok_iff w i).mp h
  exact hrow

theorem decode_of_row (i : Instr) {w : Word} (h : w &&& i.row.mask = i.row.pattern) :
    decode w = .ok (i.withOperands w) := by
  have hd := decode_encode (i.withOperands w)
  rwa [encode_of_row h] at hd

/-! ## Illegal words (R54) -/

open Machine (IllegalWord)

/-- No command's word is illegal: `encode` gives it an assigned opcode and leaves its unused fields zero. -/
theorem encode_legal (i : Instr) : ¬ IllegalWord (encode i) := by
  cases i <;> simp [IllegalWord, encode]

/-- The unassigned opcodes (R54). -/
theorem readOperands_eq_none {w : Word} (h : readOperands w = none) : cmdOp w = 0x0 ∨ 0xC ≤ (cmdOp w).toNat := by
  unfold readOperands at h
  split at h <;> simp_all
  bv_omega

/-- A legal word is the word of the command that its opcode names. -/
theorem encode_of_legal {w : Word} (h : ¬ IllegalWord w) : ∃ i, encode i = w := by
  cases hr : readOperands w with
  | none => exact absurd ((readOperands_eq_none hr).imp_right .inl) h
  | some i =>
    refine ⟨i, ?_⟩
    unfold readOperands at hr
    split at hr <;> cases hr <;> simp_all [IllegalWord, encode, cmdWord_eq_iff]

/-- The words that decode are the legal words. -/
theorem decode_ok_iff_legal (w : Word) : (∃ i, decode w = .ok i) ↔ ¬ IllegalWord w := by
  constructor
  · rintro ⟨i, hi⟩
    rw [← encode_of_decode hi]
    exact encode_legal i
  · intro h
    obtain ⟨i, rfl⟩ := encode_of_legal h
    exact ⟨i, decode_encode i⟩

/-! ## The statements about the word -/

/-- Settles O2: a command's word names the command by its opcode and operand fields, and meets its row. -/
theorem decodeOfEncodeIsTheInstruction : Obligations.DecodeOfEncodeIsTheInstruction := decode_encode

/-- Settles O3: a word that meets a row is the word of its own operands. -/
theorem encodeOfDecodeIsTheWord : Obligations.EncodeOfDecodeIsTheWord := fun _ _ => encode_of_decode

/-- Settles O4: each of R50's masks is the word with one field full, and masking a word masks each of its fields. -/
theorem fieldsCoverTheCommandWordOnce : Obligations.FieldsCoverTheCommandWordOnce := by
  intro w
  have hmask (r c z l b a o) := congrArg BitVec.toNat (and_cmdWord w r c z l b a o)
  refine ⟨(hmask 0 0 0 0 0 0 15).trans ?_, (hmask 0 0 0 0 0 15 0).trans ?_, (hmask 0 0 0 0 15 0 0).trans ?_,
    (hmask 0 0 0 63 0 0 0).trans ?_, (hmask 0 0 63 0 0 0 0).trans ?_, (hmask 0 3 0 0 0 0 0).trans ?_,
    (hmask 63 0 0 0 0 0 0).trans ?_, toNat_eq_sum_fields w⟩ <;> simp [cmdWord_toNat, Nat.mul_comm]

/-- Settles O5: decoding to a command is meeting the command's row, whatever the operands. -/
theorem wordIsACommandExactlyWhenItsMaskMatches : Obligations.WordIsACommandExactlyWhenItsMaskMatches := fun _ =>
  ⟨⟨fun ⟨_, _, _, h⟩ => row_of_decode h, fun h => ⟨_, _, _, decode_of_row (.fcfg 0 0 0) h⟩⟩,
    ⟨fun ⟨_, h⟩ => row_of_decode h, fun h => ⟨_, decode_of_row (.ffoot 0) h⟩⟩,
    ⟨fun ⟨_, h⟩ => row_of_decode h, fun h => ⟨_, decode_of_row (.funpack 0) h⟩⟩,
    ⟨fun ⟨_, h⟩ => row_of_decode h, fun h => ⟨_, decode_of_row (.fpack 0) h⟩⟩,
    ⟨fun ⟨_, _, h⟩ => row_of_decode h, fun h => ⟨_, _, decode_of_row (.feq 0 0) h⟩⟩,
    ⟨fun ⟨_, h⟩ => row_of_decode h, fun h => ⟨_, decode_of_row (.fdesc 0) h⟩⟩,
    ⟨fun ⟨_, h⟩ => row_of_decode h, fun h => ⟨_, decode_of_row (.pcfg 0) h⟩⟩,
    ⟨row_of_decode, decode_of_row .pset⟩,
    ⟨row_of_decode, decode_of_row .pget⟩,
    ⟨row_of_decode, decode_of_row .ppack⟩,
    ⟨fun ⟨_, h⟩ => row_of_decode h, fun h => ⟨_, decode_of_row (.pcomp 0) h⟩⟩⟩

/-- Settles O6: the words that decode are the legal words, and the port raises IllegalCommand for the others. -/
theorem illegalWordsFailAndAllOthersAreLegal : Obligations.IllegalWordsFailAndAllOthersAreLegal := by
  refine fun s => ⟨fun hi => ?_, (decode_ok_iff_legal s.cmd).mpr⟩
  cases hd : decode s.cmd with
  | ok i => exact absurd hi ((decode_ok_iff_legal s.cmd).mp ⟨i, hd⟩)
  | error e => exact Machine.performPort_of_error hd

/-- Settles O1, by running the decoder on each word. -/
theorem decodesTheSpecsExampleWords : Obligations.DecodesTheSpecsExampleWords := by
  unfold Obligations.DecodesTheSpecsExampleWords; decide

end Sys2Proof

/-! # Proofs about the host's sequences BUILD and PARSE

SUPPORT. Which commands ignore OPND, one command presented by the host, the bits of a packed part, the parity of a
completed word, and the statements of the family 30_encoding.md about OPND and the sequences of R62. -/

namespace Sys2Proof.Machine

/-! ## Commands that take no operand (R56) -/

/-- The commands that do not see the port inputs. -/
theorem exec_drive_of_noOperand {i : Instr}
    (hi : (∃ k, i = .ffoot k) ∨ (∃ a b, i = .feq a b) ∨ (∃ k, i = .fdesc k) ∨ (∃ c, i = .pcfg c) ∨
      i = .pget ∨ i = .ppack) (s : State) (c : Word) (o : Operand) :
    exec i (s.drive c o) = mapNext (·.drive c o) (exec i s) := by
  obtain ⟨k, rfl⟩ | ⟨a, b, rfl⟩ | ⟨k, rfl⟩ | ⟨c, rfl⟩ | rfl | rfl := hi <;>
    simp only [exec, execFfoot, execFeq, execFdesc, execPcfg, execPget, execPpack, apply_ite (mapNext _)] <;> rfl

/-- Settles O51: the commands that take no operand do not see OPND, and they leave CMD alone. -/
theorem ignoredOperandHasNoEffect : Obligations.IgnoredOperandHasNoEffect := by
  intro s t i o hi h
  obtain ⟨hcmd, -, -⟩ := exec_frame h
  calc exec i { s with opnd := o }
      = exec i (s.drive s.cmd o) := rfl
    _ = .next (t.drive s.cmd o) := by rw [exec_drive_of_noOperand hi, h, mapNext_next]
    _ = .next { t with opnd := o } := by rw [← hcmd]; rfl

/-! ## The host presents a command (R31, R62) -/

theorem deliver_encode (i : Instr) (o : Operand) (s : State) :
    deliver (.command (encode i) o) s = exec i (s.drive (encode i) o) :=
  performPort_of_ok (decode_encode i)

theorem ask_of_exec {i : Instr} {o : Operand} {s t : State} (h : exec i (s.drive (encode i) o) = .next t)
    (ht : t.resp.status = 0) : ask i o s = some t := by
  simp [ask, deliver_encode, h, ht, statusOk]

theorem State.slot_of_fd {s t : State} (h : t.fd = s.fd) (k : SlotIx) : t.slot k = s.slot k := by
  rw [State.slot, State.slot, h]

/-! ## Packing and unpacking a part (R65, R66) -/

/-- A constructed field of R14 and R15 whose width admits the value (R66). -/
abbrev Slot.Admits (f : Slot) (v : Operand) : Prop :=
  f.Inv ∧ f.valid = true ∧ v.toNat ≤ 2 ^ f.size.toNat - 1

theorem Slot.legal_of_inv {f : Slot} (h : f.Inv) (hv : f.valid = true) : legalField f.lsb f.size = true := by
  obtain ⟨hl, hz, -⟩ := h.1 hv
  exact (legalField_iff _ _).mpr ⟨hl, hz⟩

/-- Which bits of a word a constructed field's mask holds. -/
theorem Slot.mask_testBit {f : Slot} (h : f.Inv) (hv : f.valid = true) (j : Nat) :
    f.mask.toNat.testBit j = decide (f.lsb.toNat - 1 ≤ j ∧ j < f.lsb.toNat - 1 + f.size.toNat) := by
  obtain ⟨hl, hz, hm⟩ := h.1 hv
  rw [hm, fieldMask_testBit ⟨hl, hz⟩]

theorem s64_of_lt {p : Operand} (h : p.toNat < 2 ^ 63) : s64 p = p.toNat := by
  rw [s64, BitVec.toInt_eq_toNat_of_lt (by omega)]

section
variable {f : Slot} {v : Operand} (h : f.Admits v)
include h

theorem Slot.Admits.valid : f.valid = true := by
  obtain ⟨-, hv, -⟩ := h
  exact hv

theorem Slot.Admits.legal : legalField f.lsb f.size = true := by
  obtain ⟨hinv, hv, -⟩ := h
  exact Slot.legal_of_inv hinv hv

theorem Slot.Admits.lt : v.toNat < 2 ^ f.size.toNat := by
  obtain ⟨-, -, hle⟩ := h
  have := Nat.two_pow_pos f.size.toNat
  omega

end

/-- FPACK of a value in range (R66). -/
theorem exec_fpack_of_admits {k : SlotIx} {s : State} (h : (s.slot k).Admits s.opnd) :
    exec (.fpack k) s = .next (s.setResp ⟨0, insertField (s.slot k) s.opnd, 0, 0, 0, 0⟩) := by
  have hz : (2 : Nat) ^ (s.slot k).size.toNat ≤ 2 ^ 63 :=
    Nat.pow_le_pow_right (by decide) (Nat.le_of_lt_succ (s.slot k).size.isLt)
  have hs : s64 s.opnd = s.opnd.toNat := s64_of_lt (h.lt.trans_le hz)
  have hb : ¬ packBound (s.slot k) < s64 s.opnd := by
    have hlt : (s.opnd.toNat : Int) < 2 ^ (s.slot k).size.toNat := by exact_mod_cast h.lt
    rw [hs, packBound]; omega
  rw [exec, execFpack, if_pos h.valid, if_neg (by omega), if_neg hb]
  rfl

/-- FUNPACK of a 32-bit word (R65). -/
theorem exec_funpack_of_word {k : SlotIx} {s : State} (hv : (s.slot k).valid = true) (hw : s.opnd.toNat < 2 ^ 32) :
    exec (.funpack k) s = .next (s.setResp ⟨0, extractField (s.slot k) s.opnd, 0, 0, 0, 0⟩) := by
  have hs : s64 s.opnd = s.opnd.toNat := s64_of_lt (hw.trans (by decide))
  rw [exec, execFunpack, if_pos hv, if_neg (by omega), if_neg (by rw [maxWord]; omega)]
  rfl

theorem Word.toNat_zext (w : Word) : w.zext.toNat = w.toNat := BitVec.toNat_setWidth_of_le (by decide)

/-- No bit of a packed value falls off the 64 bits of RESULT. -/
theorem insertField_toNat {f : Slot} {v : Operand} (h : f.Admits v) :
    (insertField f v).toNat = v.toNat <<< (f.lsb.toNat - 1) := by
  obtain ⟨hl, hz⟩ := (legalField_iff _ _).mp h.legal
  rw [insertField_of_legal h.legal, BitVec.toNat_ofNat]
  apply Nat.mod_eq_of_lt
  calc v.toNat <<< (f.lsb.toNat - 1) < 2 ^ (f.size.toNat + (f.lsb.toNat - 1)) := by
        rw [Nat.shiftLeft_eq, Nat.pow_add]
        exact Nat.mul_lt_mul_of_pos_right h.lt (Nat.two_pow_pos _)
    _ ≤ 2 ^ 64 := Nat.pow_le_pow_right (by decide) (by omega)

/-- A packed value lies within its field's mask. -/
theorem insertField_and_mask {f : Slot} {v : Operand} (h : f.Admits v) :
    insertField f v &&& f.mask.zext = insertField f v := by
  obtain ⟨hinv, hv, -⟩ := id h
  apply BitVec.eq_of_toNat_eq
  apply Nat.eq_of_testBit_eq
  intro j
  rw [BitVec.toNat_and, Nat.testBit_and, insertField_toNat h, Word.toNat_zext,
    Slot.mask_testBit hinv hv, Nat.testBit_shiftLeft]
  by_cases hj : j < f.lsb.toNat - 1 + f.size.toNat
  · by_cases hl : f.lsb.toNat - 1 ≤ j <;> simp [hj, hl]
  · have hbit : v.toNat.testBit (j - (f.lsb.toNat - 1)) = false :=
      Nat.testBit_lt_two_pow (h.lt.trans_le (Nat.pow_le_pow_right (by decide) (by omega)))
    simp [hbit]

/-- A word that holds a packed value under the field's mask unpacks to the value. -/
theorem extractField_of_and_mask {f : Slot} {v w : Operand} (h : f.Admits v)
    (hw : w &&& f.mask.zext = insertField f v) : extractField f w = v := by
  have hn : w.toNat &&& f.mask.toNat = v.toNat <<< (f.lsb.toNat - 1) := by
    rw [← insertField_toNat h, ← hw, BitVec.toNat_and, Word.toNat_zext]
  rw [extractField_of_legal h.legal, hn, Nat.shiftLeft_shiftRight]
  simp

/-! ## The OR of packed parts (R74) -/

/-- The parts, each packed into its field, as one word. -/
def orParts (s : State) (parts : List (SlotIx × Operand)) : Operand :=
  parts.foldr (fun q x => insertField (s.slot q.1) q.2 ||| x) 0

section
variable {s : State} {parts : List (SlotIx × Operand)} {m : Operand}

/-- A mask that meets no part sees nothing of their OR. -/
theorem orParts_and_eq_zero (h : ∀ q ∈ parts, insertField (s.slot q.1) q.2 &&& m = 0) :
    orParts s parts &&& m = 0 := by
  induction parts with
  | nil => exact BitVec.zero_and
  | cons q rest ih =>
    obtain ⟨hq, hrest⟩ := List.forall_mem_cons.mp h
    rw [orParts, List.foldr_cons, BitVec.and_or_distrib_right, hq, ← orParts, ih hrest, BitVec.or_self]

/-- A mask that holds every part holds their OR. -/
theorem orParts_and_eq_self (h : ∀ q ∈ parts, insertField (s.slot q.1) q.2 &&& m = insertField (s.slot q.1) q.2) :
    orParts s parts &&& m = orParts s parts := by
  induction parts with
  | nil => exact BitVec.zero_and
  | cons q rest ih =>
    obtain ⟨hq, hrest⟩ := List.forall_mem_cons.mp h
    rw [orParts, List.foldr_cons, BitVec.and_or_distrib_right, hq, ← orParts, ih hrest]

/-- A packed value is nothing under a mask that its field's mask does not meet. -/
theorem insertField_and_of_disjoint {f : Slot} {v : Operand} (h : f.Admits v) (hm : f.mask.zext &&& m = 0) :
    insertField f v &&& m = 0 := by
  rw [← insertField_and_mask h, BitVec.and_assoc, hm]
  exact BitVec.and_zero

/-- A packed value is itself under a mask that holds its field's mask. -/
theorem insertField_and_of_subset {f : Slot} {v : Operand} (h : f.Admits v) (hm : f.mask.zext &&& m = f.mask.zext) :
    insertField f v &&& m = insertField f v := by
  rw [← insertField_and_mask h, BitVec.and_assoc, hm]

theorem Word.zext_and_zext {a b : Word} (h : a &&& b = 0) : a.zext &&& b.zext = 0 := by
  rw [Word.zext, Word.zext, ← BitVec.setWidth_and, h]; rfl

/-- Among parts that do not overlap, a field's mask shows its own part alone. -/
theorem orParts_and_mask (h : ∀ q ∈ parts, (s.slot q.1).Admits q.2)
    (hd : parts.Pairwise fun p q => (s.slot p.1).mask &&& (s.slot q.1).mask = 0) {q : SlotIx × Operand}
    (hq : q ∈ parts) : orParts s parts &&& (s.slot q.1).mask.zext = insertField (s.slot q.1) q.2 := by
  induction parts with
  | nil => cases hq
  | cons p rest ih =>
    obtain ⟨hp, hrest⟩ := List.forall_mem_cons.mp h
    obtain ⟨hpd, hrestd⟩ := List.pairwise_cons.mp hd
    rw [orParts, List.foldr_cons, BitVec.and_or_distrib_right, ← orParts]
    obtain rfl | hq := List.mem_cons.mp hq
    · have h0 : orParts s rest &&& (s.slot q.1).mask.zext = 0 := orParts_and_eq_zero fun r hr =>
        insertField_and_of_disjoint (hrest r hr) (Word.zext_and_zext (BitVec.and_comm _ _ ▸ hpd r hr))
      rw [h0, insertField_and_mask hp]
      exact BitVec.or_zero
    · rw [insertField_and_of_disjoint hp (Word.zext_and_zext (hpd q hq)), ih hrest hrestd hq]
      exact BitVec.zero_or

end

/-- One FPACK of BUILD's first loop. -/
theorem packParts_cons {s : State} {k : SlotIx} {v : Operand} (h : (s.slot k).Admits v)
    (rest : List (SlotIx × Operand)) (w : Operand) :
    packParts ((k, v) :: rest) w s = packParts rest (w ||| insertField (s.slot k) v)
      ((s.drive (encode (.fpack k)) v).setResp ⟨0, insertField (s.slot k) v, 0, 0, 0, 0⟩) := by
  have hask := ask_of_exec (exec_fpack_of_admits (s := s.drive (encode (.fpack k)) v) h) rfl
  simp [packParts, hask]

/-- BUILD's first loop writes no slot and gives the OR of the parts. -/
theorem packParts_eq (parts : List (SlotIx × Operand)) (w : Operand) {s : State}
    (h : ∀ q ∈ parts, (s.slot q.1).Admits q.2) :
    ∃ t, packParts parts w s = some (w ||| orParts s parts, t) ∧ t.fd = s.fd ∧ t.par = s.par := by
  induction parts generalizing w s with
  | nil => exact ⟨s, by simp [packParts, orParts], rfl, rfl⟩
  | cons q rest ih =>
    obtain ⟨hq, hrest⟩ := List.forall_mem_cons.mp h
    obtain ⟨t, ht, hfd, hpar⟩ := ih (w ||| insertField (s.slot q.1) q.2)
      (s := (s.drive (encode (.fpack q.1)) q.2).setResp ⟨0, insertField (s.slot q.1) q.2, 0, 0, 0, 0⟩) hrest
    refine ⟨t, ?_, hfd, hpar⟩
    rw [packParts_cons hq, ht, BitVec.or_assoc]
    rfl

/-- PARSE reads the slots, writes none, and gives what each of them extracts from the word. -/
theorem parse_eq (ks : List SlotIx) {w : Operand} {s : State} (h : ∀ k ∈ ks, (s.slot k).valid = true)
    (hw : w.toNat < 2 ^ 32) :
    ∃ u, parse ks w s = some (ks.map fun k => extractField (s.slot k) w, u) ∧ u.fd = s.fd := by
  induction ks generalizing s with
  | nil => exact ⟨s, rfl, rfl⟩
  | cons k rest ih =>
    obtain ⟨hk, hrest⟩ := List.forall_mem_cons.mp h
    have hask := ask_of_exec (exec_funpack_of_word (s := s.drive (encode (.funpack k)) w) hk hw) rfl
    obtain ⟨u, hu, hfd⟩ := ih (s := (s.drive (encode (.funpack k)) w).setResp
      ⟨0, extractField (s.slot k) w, 0, 0, 0, 0⟩) hrest
    refine ⟨u, ?_, hfd⟩
    simp only [parse, hask, State.drive_slot, State.drive_opnd, hu]
    rfl

/-! ## The parity of the completed word (R86, R88) -/

/-- PPACK of a payload (R86). -/
theorem exec_ppack_of_data {s : State} (hv : s.par.pvalid = true) (hd : s.par.dvalid = true) :
    exec .ppack s = .next (s.setResp ⟨0, (pbit s.par.pdata s.par.conv).zext, 0, 0, 0, 0⟩) := by
  rw [exec, execPpack, if_pos hv, if_pos hd]; rfl

/-- BUILD's last line gives the parity word and writes no slot. -/
theorem parityOf_eq {c : ConvCode} (hc : legalConv c = true) (w : Operand) (s : State) :
    ∃ u, parityOf c w s = some u ∧ u.resp.result = (pbit w c).zext ∧ u.fd = s.fd := by
  have h1 := ask_of_exec (exec_pcfg_of_legal hc (s.drive (encode (.pcfg c)) 0)) rfl
  have h2 := fun t ht => ask_of_exec (exec_pset_of_constructed (s := State.drive t (encode .pset) w) ht) rfl
  have h3 := fun t hv hd => ask_of_exec (exec_ppack_of_data (s := State.drive t (encode .ppack) 0) hv hd) rfl
  rw [parityOf, h1, Option.bind_some, h2 _ rfl, Option.bind_some, h3 _ rfl rfl]
  exact ⟨_, rfl, rfl, rfl⟩

theorem popcountLow_congr {n u v : Nat} (h : ∀ j < n, u.testBit j = v.testBit j) :
    popcountLow n u = popcountLow n v := by
  induction n with
  | zero => rfl
  | succ n ih => rw [popcountLow, popcountLow, ih fun j hj => h j (by omega), h n (by omega)]

theorem onesBelow_eq_popcountLow (n : Nat) (p : Operand) : onesBelow n p = popcountLow n p.toNat :=
  (popcountLow_eq_length n p.toNat).symm

/-- A parity word has no bit below bit 32. -/
theorem pbit_getLsbD_low (p : Operand) {c : ConvCode} (hc : c = 0b01 ∨ c = 0b10) {j : Nat} (hj : j < 31) :
    (pbit p c).getLsbD j = false := by
  have hbit : ∀ j < 31, parityBit.getLsbD j = false := by decide
  obtain h | h := pbit_cases p hc
  · rw [h, hbit j hj]
  · rw [h]; exact BitVec.getLsbD_zero

/-- Bit 32 of the parity word completes the count of ones to the parity that the convention names (R81, R88). -/
theorem popcountLow_add_pbit (p : Operand) {c : ConvCode} (hc : c = 0b01 ∨ c = 0b10) :
    (popcountLow 31 p.toNat + ((pbit p c).getLsbD 31).toNat) % 2 = if c = 0b01 then 1 else 0 := by
  have hbit : parityBit[31] = true := by decide
  rcases hc with rfl | rfl
  · rw [pbit_odd]; split <;> simp [hbit] <;> omega
  · rw [pbit_even]; split <;> simp [hbit] <;> omega

/-- The payload's low 31 bits with the parity word have the parity that the convention names (R88). -/
theorem onesBelow_completed (p : Operand) {c : ConvCode} (hc : c = 0b01 ∨ c = 0b10) :
    onesBelow 32 ((p &&& 0x7FFFFFFF) ||| (pbit p c).zext) % 2 = if c = 0b01 then 1 else 0 := by
  have hmask : ∀ j < 31, (0x7FFFFFFF : Operand).getLsbD j = true := by decide
  have hlow : popcountLow 31 ((p &&& 0x7FFFFFFF) ||| (pbit p c).zext).toNat = popcountLow 31 p.toNat :=
    popcountLow_congr fun j hj => by
      change BitVec.getLsbD _ j = p.getLsbD j
      rw [BitVec.getLsbD_or, BitVec.getLsbD_and, hmask j hj, Word.zext, BitVec.getLsbD_setWidth,
        pbit_getLsbD_low p hc hj]
      simp
  have htop : ((p &&& 0x7FFFFFFF) ||| (pbit p c).zext).toNat.testBit 31 = (pbit p c).getLsbD 31 := by
    change BitVec.getLsbD _ 31 = _
    simp
  rw [onesBelow_eq_popcountLow, popcountLow, hlow, htop, popcountLow_add_pbit p hc]

/-! ## BUILD and PARSE (R62) -/

/-- The word that BUILD gives: the OR of the parts, completed by its parity word. -/
def builtWord (s : State) (parts : List (SlotIx × Operand)) (c : ConvCode) : Operand :=
  orParts s parts ||| (pbit (orParts s parts) c).zext

/-- BUILD gives its word and writes no slot. -/
theorem build_eq {s : State} {parts : List (SlotIx × Operand)} {c : ConvCode} (hc : legalConv c = true)
    (h : ∀ q ∈ parts, (s.slot q.1).Admits q.2) :
    ∃ t, build parts c s = some (builtWord s parts c, t) ∧ t.fd = s.fd := by
  obtain ⟨t, ht, htfd, -⟩ := packParts_eq parts 0 h
  have hz : (0 : Operand) ||| orParts s parts = orParts s parts := BitVec.zero_or
  rw [hz] at ht
  obtain ⟨u, hu, hr, hufd⟩ := parityOf_eq hc (orParts s parts) t
  refine ⟨u, ?_, hufd.trans htfd⟩
  simp only [build, ht, hu, Option.map_some, hr, builtWord]

/-- A word without bit 32 lies within the low 31 bits. -/
theorem Word.zext_and_low {m : Word} (h : m &&& 0x80000000 = 0) : m.zext &&& 0x7FFFFFFF = m.zext := by
  have hm : m &&& 0x7FFFFFFF = m := by
    calc m &&& 0x7FFFFFFF
        = (m &&& 0x80000000) ||| (m &&& 0x7FFFFFFF) := by rw [h]; exact BitVec.zero_or.symm
      _ = m &&& (0x80000000 ||| 0x7FFFFFFF) := BitVec.and_or_distrib_left.symm
      _ = m := BitVec.and_allOnes
  calc m.zext &&& 0x7FFFFFFF
      = (m &&& 0x7FFFFFFF).zext := (BitVec.setWidth_and (y := (0x7FFFFFFF : Word))).symm
    _ = m.zext := by rw [hm]

/-- A mask without bit 32 does not meet the parity word. -/
theorem pbit_and_of_low {m : Word} (h : m &&& 0x80000000 = 0) (p : Operand) {c : ConvCode}
    (hc : c = 0b01 ∨ c = 0b10) : pbit p c &&& m = 0 := by
  obtain hp | hp := pbit_cases p hc
  · rw [hp, BitVec.and_comm]; exact h
  · rw [hp]; exact BitVec.zero_and

section
variable {s : State} {parts : List (SlotIx × Operand)} {c : ConvCode}

/-- Parts that keep clear of bit 32 lie within the low 31 bits. -/
theorem orParts_and_low (h : ∀ q ∈ parts, (s.slot q.1).Admits q.2)
    (htop : ∀ q ∈ parts, (s.slot q.1).mask &&& 0x80000000 = 0) :
    orParts s parts &&& 0x7FFFFFFF = orParts s parts :=
  orParts_and_eq_self fun q hq => insertField_and_of_subset (h q hq) (Word.zext_and_low (htop q hq))

theorem builtWord_lt (hlow : orParts s parts &&& 0x7FFFFFFF = orParts s parts) :
    (builtWord s parts c).toNat < 2 ^ 32 := by
  rw [builtWord, ← hlow, BitVec.toNat_or, BitVec.toNat_and, Word.toNat_zext]
  exact Nat.or_lt_two_pow (Nat.and_le_right.trans_lt (by decide)) (BitVec.isLt _)

theorem onesBelow_builtWord (hlow : orParts s parts &&& 0x7FFFFFFF = orParts s parts) (hc : c = 0b01 ∨ c = 0b10) :
    onesBelow 32 (builtWord s parts c) % 2 = if c = 0b01 then 1 else 0 := by
  have hones := onesBelow_completed (orParts s parts) hc
  rwa [hlow] at hones

/-- Each mask shows its own part of the built word: the other parts and the parity bit lie outside it. -/
theorem extractField_builtWord (h : ∀ q ∈ parts, (s.slot q.1).Admits q.2)
    (hd : parts.Pairwise fun p q => (s.slot p.1).mask &&& (s.slot q.1).mask = 0) (hc : c = 0b01 ∨ c = 0b10)
    {q : SlotIx × Operand} (hq : q ∈ parts) (htop : (s.slot q.1).mask &&& 0x80000000 = 0) :
    extractField (s.slot q.1) (builtWord s parts c) = q.2 := by
  apply extractField_of_and_mask (h q hq)
  rw [builtWord, BitVec.and_or_distrib_right, orParts_and_mask h hd hq,
    Word.zext_and_zext (pbit_and_of_low htop _ hc)]
  exact BitVec.or_zero

end

/-- Settles O25: below bit 32 the built word holds the parts side by side, so each mask shows its own part, and the
parity word completes the count of their ones. -/
theorem parseOfBuildGivesThePartsAndTheParity : Obligations.ParseOfBuildGivesThePartsAndTheParity := by
  intro s parts c hc hparts hd
  have hadm : ∀ q ∈ parts, (s.slot q.1).Admits q.2 := fun q hq => by
    obtain ⟨hinv, hv, hr, -⟩ := hparts q hq
    exact ⟨hinv, hv, hr⟩
  have htop : ∀ q ∈ parts, (s.slot q.1).mask &&& 0x80000000 = 0 := fun q hq => by
    obtain ⟨-, -, -, hm⟩ := hparts q hq
    exact hm
  have hlow := orParts_and_low hadm htop
  obtain ⟨t, ht, htfd⟩ := build_eq ((legalConv_iff c).mpr hc) hadm
  have hvalid : ∀ k ∈ parts.map Prod.fst, (t.slot k).valid = true := List.forall_mem_map.mpr fun q hq => by
    rw [State.slot_of_fd htfd, (hadm q hq).valid]
  obtain ⟨u, hu, hufd⟩ := parse_eq _ hvalid (builtWord_lt (c := c) hlow)
  refine ⟨_, t, u, ht, builtWord_lt hlow, onesBelow_builtWord hlow hc, ?_, hufd.trans htfd⟩
  have hvals : (parts.map Prod.fst).map (fun k => extractField (t.slot k) (builtWord s parts c)) =
      parts.map Prod.snd := by
    rw [List.map_map]
    refine List.map_congr_left fun q hq => ?_
    rw [Function.comp_apply, State.slot_of_fd htfd, extractField_builtWord hadm hd hc hq (htop q hq)]
  rw [hu, hvals]

end Sys2Proof.Machine

/-! # Proofs about the Field commands

SUPPORT. What each Field command does once its guards are decided, the values it computes, and the statements of the
family 40_field.md. -/

namespace Sys2Proof.Machine

/-! ## Errors: nothing constructed, an illegal pair, a value out of range (R63 to R66, R72) -/

/-- A command that misses the slot or the parity unit that it needs reports exactly that (R96 code 5). -/
theorem exec_of_missingInstance {i : Instr} {s : State} (h : MissingInstance i s) :
    exec i s = .next (s.setResp (errorResp .noInstanceError)) := by
  cases i
  case fcfg | feq | pcfg | pcomp => exact h.elim
  all_goals exact if_neg (Bool.eq_false_iff.mp h)

theorem exec_fcfg_of_illegal {l z : UInt6} (h : ¬ legalField l z = true) (k : SlotIx) (s : State) :
    exec (.fcfg k l z) s = .next (s.setResp (errorResp .structureError)) := if_neg h

/-- The record of a RangeError holds OPND as it stands at the port (R7, R100). -/
theorem errorResp_rangeError_opnd (n : Operand) (b : Int) (p : Operand) :
    errorResp (.rangeError n b (s64 p)) = ⟨2, 0, 0, n, u64 b, p⟩ := by
  rw [errorResp, u64_s64]; rfl

section
variable {s : State} {k : SlotIx} (hv : (s.slot k).valid = true)
include hv

theorem exec_funpack_of_negative (h : s64 s.opnd < 0) :
    exec (.funpack k) s = .next (s.setResp ⟨2, 0, 0, (s.slot k).name, 0, s.opnd⟩) := by
  rw [exec, execFunpack, if_pos hv, if_pos h, raise_eq, errorResp_rangeError_opnd]; rfl

theorem exec_funpack_of_above (h : maxWord < s64 s.opnd) :
    exec (.funpack k) s = .next (s.setResp ⟨2, 0, 0, (s.slot k).name, u64 maxWord, s.opnd⟩) := by
  have h0 : ¬ s64 s.opnd < 0 := by rw [maxWord] at h; omega
  rw [exec, execFunpack, if_pos hv, if_neg h0, if_pos h, raise_eq, errorResp_rangeError_opnd]

theorem exec_fpack_of_negative (h : s64 s.opnd < 0) :
    exec (.fpack k) s = .next (s.setResp ⟨2, 0, 0, (s.slot k).name, 0, s.opnd⟩) := by
  rw [exec, execFpack, if_pos hv, if_pos h, raise_eq, errorResp_rangeError_opnd]; rfl

/-- FPACK's upper bound is never negative, so a value above it is not also below 0 (R66). -/
theorem exec_fpack_of_above (h : packBound (s.slot k) < s64 s.opnd) :
    exec (.fpack k) s = .next (s.setResp ⟨2, 0, 0, (s.slot k).name, u64 (packBound (s.slot k)), s.opnd⟩) := by
  have h0 : ¬ s64 s.opnd < 0 := by
    have hp : (0 : Int) < 2 ^ (s.slot k).size.toNat := by positivity
    rw [packBound] at h; omega
  rw [exec, execFpack, if_pos hv, if_neg h0, if_pos h, raise_eq, errorResp_rangeError_opnd]

/-! ## Success (R64, R66, R72) -/

theorem exec_ffoot_of_valid : exec (.ffoot k) s = .next (s.setResp ⟨0, (s.slot k).mask.zext, 0, 0, 0, 0⟩) :=
  if_pos hv

theorem exec_fdesc_of_valid :
    exec (.fdesc k) s = .next (s.setResp ⟨0, (s.slot k).name, descAux (s.slot k), 0, 0, 0⟩) := if_pos hv

/-- FPACK of a value within both bounds, whatever mask the slot holds. -/
theorem exec_fpack_of_inRange (h0 : 0 ≤ s64 s.opnd) (hb : s64 s.opnd ≤ packBound (s.slot k)) :
    exec (.fpack k) s = .next (s.setResp ⟨0, insertField (s.slot k) s.opnd, 0, 0, 0, 0⟩) := by
  rw [exec, execFpack, if_pos hv, if_neg (by omega), if_neg (by omega)]
  rfl

end

/-- Everything FUNPACK can do. -/
theorem exec_funpack_next {k : SlotIx} {s t : State} (h : exec (.funpack k) s = .next t) :
    (∃ e, t = s.setResp (errorResp e)) ∨
    ((s.slot k).valid = true ∧ 0 ≤ s64 s.opnd ∧ s64 s.opnd ≤ maxWord ∧
      t = s.setResp ⟨0, extractField (s.slot k) s.opnd, 0, 0, 0, 0⟩) := by
  rw [exec, execFunpack] at h
  split_ifs at h with hv h0 hmax
  · exact .inl ⟨_, raise_next h⟩
  · exact .inl ⟨_, raise_next h⟩
  · exact .inr ⟨hv, not_lt.mp h0, not_lt.mp hmax, respondOk_next h⟩
  · exact .inl ⟨_, raise_next h⟩

/-- Everything FPACK can do. -/
theorem exec_fpack_next {k : SlotIx} {s t : State} (h : exec (.fpack k) s = .next t) :
    (∃ e, t = s.setResp (errorResp e)) ∨
    ((s.slot k).valid = true ∧ 0 ≤ s64 s.opnd ∧ s64 s.opnd ≤ packBound (s.slot k) ∧
      t = s.setResp ⟨0, insertField (s.slot k) s.opnd, 0, 0, 0, 0⟩) := by
  rw [exec, execFpack] at h
  split_ifs at h with hv h0 hmax
  · exact .inl ⟨_, raise_next h⟩
  · exact .inl ⟨_, raise_next h⟩
  · exact .inr ⟨hv, not_lt.mp h0, not_lt.mp hmax, respondOk_next h⟩
  · exact .inl ⟨_, raise_next h⟩

/-! ## OPND within a command's bounds (R7, R65, R66) -/

theorem s64_of_nonneg {p : Operand} (h : 0 ≤ s64 p) : s64 p = p.toNat :=
  s64_of_lt (by have := BitVec.toInt_pos_iff.mp h; omega)

/-- An OPND within FUNPACK's bounds is a 32-bit word. -/
theorem toNat_lt_of_s64 {p : Operand} (h0 : 0 ≤ s64 p) (h : s64 p ≤ maxWord) : p.toNat < 2 ^ 32 := by
  rw [s64_of_nonneg h0, maxWord] at h
  omega

/-- An OPND within FPACK's bounds is a value that the field admits. -/
theorem admits_of_s64 {f : Slot} {p : Operand} (hinv : f.Inv) (hv : f.valid = true) (h0 : 0 ≤ s64 p)
    (h : s64 p ≤ packBound f) : f.Admits p := by
  rw [s64_of_nonneg h0, packBound] at h
  have hlt : p.toNat < 2 ^ f.size.toNat := by exact_mod_cast Int.lt_of_le_sub_one h
  exact ⟨hinv, hv, Nat.le_sub_one_of_lt hlt⟩

/-! ## Commands with an OPND driven before them -/

section
variable {s : State} {k : SlotIx}

theorem exec_funpack_word (hv : (s.slot k).valid = true) {w : Operand} (hw : w.toNat < 2 ^ 32) :
    exec (.funpack k) { s with opnd := w } =
      .next { s with opnd := w, resp := ⟨0, extractField (s.slot k) w, 0, 0, 0, 0⟩ } :=
  exec_funpack_of_word (s := { s with opnd := w }) hv hw

theorem exec_fpack_value {v : Operand} (h : (s.slot k).Admits v) :
    exec (.fpack k) { s with opnd := v } =
      .next { s with opnd := v, resp := ⟨0, insertField (s.slot k) v, 0, 0, 0, 0⟩ } :=
  exec_fpack_of_admits (s := { s with opnd := v }) h

end

/-- A data word at the 64-bit port (R35). -/
theorem Word.zext_lt (w : Word) : w.zext.toNat < 2 ^ 32 := (Word.toNat_zext w).trans_lt w.isLt

/-! ## Extracted and packed values (R65, R66, R68, R76) -/

/-- Packing 0 gives 0. -/
theorem insertField_zero {f : Slot} (h : legalField f.lsb f.size = true) : insertField f 0 = 0 := by
  rw [insertField_of_legal h]; simp

/-- On a legal field, extraction is R65's shift on 64-bit patterns. -/
theorem extractField_eq_ushiftRight {f : Slot} (h : legalField f.lsb f.size = true) (w : Operand) :
    extractField f w = (w &&& f.mask.zext) >>> (f.lsb.toNat - 1) := by
  apply BitVec.eq_of_toNat_eq
  have hlt : (w.toNat &&& f.mask.toNat) >>> (f.lsb.toNat - 1) < 2 ^ 64 :=
    ((Nat.shiftRight_le _ _).trans Nat.and_le_left).trans_lt w.isLt
  rw [extractField_of_legal h, BitVec.toNat_ofNat, Nat.mod_eq_of_lt hlt, BitVec.toNat_ushiftRight, BitVec.toNat_and,
    Word.toNat_zext]

/-- On a legal field, insertion is R66's shift on 64-bit patterns. -/
theorem insertField_eq_shiftLeft {f : Slot} (h : legalField f.lsb f.size = true) (v : Operand) :
    insertField f v = v <<< (f.lsb.toNat - 1) := by
  apply BitVec.eq_of_toNat_eq
  rw [insertField_of_legal h, BitVec.toNat_ofNat, BitVec.toNat_shiftLeft]

section
variable {f : Slot} (h : f.Inv) (hv : f.valid = true)
include h hv

/-- Shifted down to bit 0, the mask of a constructed field is `size` ones (R68). -/
theorem Slot.mask_shiftRight : f.mask.toNat >>> (f.lsb.toNat - 1) = 2 ^ f.size.toNat - 1 := by
  obtain ⟨hl, hz, hm⟩ := h.1 hv
  rw [hm, fieldMask_toNat ⟨hl, hz⟩, Nat.shiftRight_eq_div_pow, Nat.mul_div_cancel _ (Nat.two_pow_pos _)]

/-- A constructed field extracts the `size` bits of the word from its lsb on. -/
theorem extractField_toNat (w : Operand) :
    (extractField f w).toNat = (w.toNat >>> (f.lsb.toNat - 1)) % 2 ^ f.size.toNat := by
  rw [extractField_eq_ushiftRight (Slot.legal_of_inv h hv), BitVec.toNat_ushiftRight, BitVec.toNat_and,
    Word.toNat_zext, Nat.shiftRight_and_distrib, Slot.mask_shiftRight h hv, Nat.and_two_pow_sub_one_eq_mod]

theorem extractField_lt (w : Operand) : (extractField f w).toNat < 2 ^ f.size.toNat := by
  rw [extractField_toNat h hv]
  exact Nat.mod_lt _ (Nat.two_pow_pos _)

/-- FPACK accepts what FUNPACK extracts (R73). -/
theorem admits_extractField (w : Operand) : f.Admits (extractField f w) :=
  ⟨h, hv, Nat.le_sub_one_of_lt (extractField_lt h hv w)⟩

/-- Packing what was extracted gives the bits of the word under the mask (R73). -/
theorem insertField_extractField (w : Operand) : insertField f (extractField f w) = w &&& f.mask.zext := by
  apply BitVec.eq_of_toNat_eq
  apply Nat.eq_of_testBit_eq
  intro j
  rw [insertField_toNat (admits_extractField h hv w), extractField_toNat h hv, BitVec.toNat_and, Word.toNat_zext,
    Nat.testBit_and, Slot.mask_testBit h hv, Nat.testBit_shiftLeft, Nat.testBit_mod_two_pow, Nat.testBit_shiftRight]
  by_cases hj : f.lsb.toNat - 1 ≤ j
  · have hlow : j - (f.lsb.toNat - 1) < f.size.toNat ↔ j < f.lsb.toNat - 1 + f.size.toNat := by omega
    simp [hj, hlow, Bool.and_comm]
  · simp [hj]

end

/-- A mask has no bit above bit 32 (R35). -/
theorem Word.zext_and_maxWord (m : Word) : m.zext &&& 0xFFFFFFFF = m.zext := by
  apply BitVec.eq_of_toNat_eq
  rw [BitVec.toNat_and, Word.toNat_zext]
  exact (Nat.and_two_pow_sub_one_eq_mod m.toNat 32).trans (Nat.mod_eq_of_lt m.isLt)

theorem lt_of_and_maxWord {p : Operand} (h : p &&& 0xFFFFFFFF = p) : p.toNat < 2 ^ 32 := by
  rw [← h, BitVec.toNat_and]
  exact Nat.and_le_right.trans_lt (by decide)

theorem insertField_and_maxWord {f : Slot} {v : Operand} (h : f.Admits v) :
    insertField f v &&& 0xFFFFFFFF = insertField f v :=
  insertField_and_of_subset h (Word.zext_and_maxWord f.mask)

/-- A packed value is a 32-bit word (R35, R75). -/
theorem insertField_lt {f : Slot} {v : Operand} (h : f.Admits v) : (insertField f v).toNat < 2 ^ 32 :=
  lt_of_and_maxWord (insertField_and_maxWord h)

/-- The number of ones below `n` of a number whose ones are the `z` bits from `a` on. -/
theorem popcountLow_of_interval {v a z : Nat} (h : ∀ j, v.testBit j = decide (a ≤ j ∧ j < a + z)) (n : Nat) :
    popcountLow n v = min n (a + z) - min n a := by
  induction n with
  | zero => simp [popcountLow]
  | succ n ih =>
    rw [popcountLow, ih, h]
    by_cases hn : a ≤ n ∧ n < a + z
    · simp only [hn, and_self, decide_true, Bool.toNat_true]; omega
    · simp only [hn, decide_false, Bool.toNat_false]; omega

/-! ## FDESC's second result (R72) -/

/-- The word as the concatenation of its fields. -/
theorem descAux_eq_append (f : Slot) : descAux f = (0 : BitVec 50) ++ f.size ++ (0 : BitVec 2) ++ f.lsb := by
  apply BitVec.eq_of_toNat_eq
  have hz : f.size.toNat < 2 ^ 6 := f.size.isLt
  have hl : f.lsb.toNat < 2 ^ 64 := f.lsb.isLt.trans (by decide)
  have hlt : f.size.toNat <<< 8 ||| f.lsb.toNat < 2 ^ 64 :=
    Nat.or_lt_two_pow (by rw [Nat.shiftLeft_eq]; omega) hl
  rw [descAux, BitVec.toNat_ofNat, Nat.mod_eq_of_lt hlt, BitVec.toNat_append, BitVec.toNat_append,
    BitVec.toNat_append]
  simp [← Nat.shiftLeft_add]

theorem descAux_lsb (f : Slot) : (descAux f).extractLsb' 0 6 = f.lsb := by
  rw [descAux_eq_append, BitVec.extractLsb'_append_eq_right]

theorem descAux_size (f : Slot) : (descAux f).extractLsb' 8 6 = f.size := by
  rw [descAux_eq_append, BitVec.extractLsb'_append_eq_of_le (by decide), BitVec.extractLsb'_append_eq_of_le (by decide),
    BitVec.extractLsb'_append_eq_right]

/-- No bit outside the two fields is set: each part of the word meets the mask's part in 0. -/
theorem descAux_rest (f : Slot) : descAux f &&& 0xFFFFFFFFFFFFC0C0 = 0 := by
  rw [descAux_eq_append]
  calc ((0 : BitVec 50) ++ f.size ++ (0 : BitVec 2) ++ f.lsb) &&&
        (BitVec.allOnes 50 ++ (0 : BitVec 6) ++ BitVec.allOnes 2 ++ (0 : BitVec 6))
      = (0 : BitVec 50) ++ (0 : BitVec 6) ++ (0 : BitVec 2) ++ (0 : BitVec 6) := by
        simp only [BitVec.and_append]
        simp
    _ = 0 := rfl

/-! ## Equality of fields (R69, R70) -/

theorem fieldsEqual_self (f : Slot) : fieldsEqual f f = f.valid := by simp [fieldsEqual]

theorem fieldsEqual_comm (f g : Slot) : fieldsEqual f g = fieldsEqual g f := by
  rw [Bool.eq_iff_iff, fieldsEqual_iff, fieldsEqual_iff]
  constructor <;> rintro ⟨hf, hg, hl, hz, hn⟩ <;> exact ⟨hg, hf, hl.symm, hz.symm, hn.symm⟩

/-- Equal fields compare alike with every slot. -/
theorem fieldsEqual_congr {f g : Slot} (h : fieldsEqual f g = true) (e : Slot) :
    fieldsEqual g e = fieldsEqual f e := by
  obtain ⟨hf, hg, hl, hz, hn⟩ := (fieldsEqual_iff f g).mp h
  rw [fieldsEqual, fieldsEqual, hf, hg, hl, hz, hn]

/-- Equal constructed fields have equal masks, which FEQ does not compare (R70, R71). -/
theorem mask_eq_of_fieldsEqual {f g : Slot} (hf : f.Inv) (hg : g.Inv) (h : fieldsEqual f g = true) :
    f.mask = g.mask := by
  obtain ⟨hfv, hgv, hl, hz, -⟩ := (fieldsEqual_iff f g).mp h
  obtain ⟨-, -, hfm⟩ := hf.1 hfv
  obtain ⟨-, -, hgm⟩ := hg.1 hgv
  rw [hfm, hgm, hl, hz]

theorem exec_feq_of_equal {s : State} {a b : SlotIx} (h : fieldsEqual (s.slot a) (s.slot b) = true) :
    exec (.feq a b) s = .next (s.setResp ⟨0, 1, 0, 0, 0, 0⟩) := by
  rw [exec_feq, if_pos h]

theorem exec_feq_of_different {s : State} {a b : SlotIx} (h : ¬ fieldsEqual (s.slot a) (s.slot b) = true) :
    exec (.feq a b) s = .next (s.setResp ⟨0, 0, 0, 0, 0, 0⟩) := by
  rw [exec_feq, if_neg h]

/-! ## What the commands leave alone -/

/-- A command that is no FCFG writes no slot (R16). -/
theorem exec_fd {i : Instr} {s t : State} (h : exec i s = .next t) (hi : ∀ k l z, i ≠ .fcfg k l z) :
    t.fd = s.fd := by
  obtain ⟨e, rfl⟩ | ⟨r, a, rfl⟩ | ⟨k, l, z, rfl, -, -⟩ | ⟨c, -, -, rfl⟩ | ⟨-, -, rfl⟩ := exec_next h
  case inr.inr.inl => exact absurd rfl (hi k l z)
  all_goals rfl

/-- A read-only command writes the response alone (R16, R21). -/
theorem exec_readOnly {i : Instr} {s t : State} (hi : i.readOnly = true) (h : exec i s = .next t) :
    ∃ r, t = s.setResp r := by
  obtain ⟨e, rfl⟩ | ⟨r, a, rfl⟩ | ⟨k, l, z, rfl, -, -⟩ | ⟨c, rfl, -, -⟩ | ⟨rfl, -, -⟩ := exec_next h
  · exact ⟨_, rfl⟩
  · exact ⟨_, rfl⟩
  all_goals simp [Instr.readOnly] at hi

/-- FCFG does not read the slot that it writes (R80). -/
theorem exec_fcfg_setSlot {l z : UInt6} (h : legalField l z = true) (k : SlotIx) (s : State) (f : Slot) :
    exec (.fcfg k l z) (s.setSlot k f) = exec (.fcfg k l z) s := by
  rw [exec_fcfg_of_legal h, exec_fcfg_of_legal h, State.setSlot_setSlot, State.setSlot_opnd]

/-! ## A field of width 0 (R77) -/

theorem fieldMask_size_zero (l : UInt6) : fieldMask l 0 = 0 := by
  rw [fieldMask_eq_ofNat]; simp

/-- FDESC's second result on a field of width 0 is its lsb. -/
theorem descAux_of_size_zero {f : Slot} (h : f.size = 0) : descAux f = f.lsb.setWidth 64 := by
  apply BitVec.eq_of_toNat_eq
  simp [descAux, h]

/-- An extracted value is below 2^0. -/
theorem extractField_of_size_zero {f : Slot} (h : f.Inv) (hv : f.valid = true) (hz : f.size = 0) (w : Operand) :
    extractField f w = 0 := by
  have hlt := extractField_lt h hv w
  rw [hz] at hlt
  exact BitVec.eq_of_toNat_eq (Nat.lt_one_iff.mp hlt)

/-- FPACK refuses every value but 0, and both its bounds are 0. -/
theorem exec_fpack_of_size_zero {s : State} {k : SlotIx} (hv : (s.slot k).valid = true) (hz : (s.slot k).size = 0)
    (hne : s.opnd ≠ 0) :
    exec (.fpack k) s = .next (s.setResp ⟨2, 0, 0, (s.slot k).name, 0, s.opnd⟩) := by
  have hb : packBound (s.slot k) = 0 := by rw [packBound, hz]; rfl
  have h0 : s64 s.opnd ≠ 0 := fun h => hne (BitVec.eq_of_toInt_eq h)
  obtain hneg | hpos := lt_or_gt_of_ne h0
  · exact exec_fpack_of_negative hv hneg
  · rw [exec_fpack_of_above hv (by rwa [hb]), hb]; rfl

/-! ## The statements about several commands -/

/-- Settles O20: the footprint is the slot's mask, whose bits the slot invariant fixes. -/
theorem footprintHasExactlySizeOnesFromLsb : Obligations.FootprintHasExactlySizeOnesFromLsb := by
  intro s k hinv hv
  have hbits := Slot.mask_testBit hinv hv
  obtain ⟨hl, hz, -⟩ := hinv.1 hv
  refine ⟨_, exec_ffoot_of_valid hv, fun j => ?_, ?_, ?_⟩
  · change (s.slot k).mask.zext.toNat.testBit j = _
    rw [Word.toNat_zext, hbits]
  · rw [onesBelow_eq_popcountLow, Word.toNat_zext, popcountLow_of_interval hbits]
    omega
  · rw [Word.toNat_zext, Slot.mask_shiftRight hinv hv]

/-- Settles O21: FEQ answers `fieldsEqual`, which is an equivalence on valid slots and ignores masks, and R15 makes
the mask a function of lsb and size. -/
theorem feqIsAnEquivalenceOnValidSlots : Obligations.FeqIsAnEquivalenceOnValidSlots := by
  intro s hs a b c ha hb hc
  refine ⟨exec_feq_of_equal (by rw [fieldsEqual_self, ha]), ?_, fun h => ?_, fun h => exec_feq_of_different ?_⟩
  · rw [exec_feq, exec_feq, fieldsEqual_comm]
  · obtain ⟨-, hone, -⟩ := exec_feq_result h
    have heq : fieldsEqual (s.slot a) (s.slot b) = true := hone.mp rfl
    refine ⟨mask_eq_of_fieldsEqual (hs.1 a) (hs.1 b) heq, ?_⟩
    rw [exec_feq, exec_feq, fieldsEqual_congr heq]
  · rw [fieldsEqual_iff]
    rintro ⟨-, -, hl, hz, hn⟩
    obtain hd | hd | hd := h
    exacts [hd hl, hd hz, hd hn]

/-- Settles O22: a slot equals itself when it is valid, FCFG replaces its slot whole, and no other command writes a
slot. -/
theorem noFieldCommandReadsAndWritesASlot : Obligations.NoFieldCommandReadsAndWritesASlot := by
  intro s k
  refine ⟨fun hv => exec_feq_of_equal ?_, fun hv => exec_feq_of_different ?_, fun f l z hf => ?_,
    fun i t _ hi h => exec_fd h hi⟩
  · rw [fieldsEqual_self, hv]
  · rw [fieldsEqual_self, hv]; decide
  · exact exec_fcfg_setSlot ((legalField_iff l z).mpr hf) k s f

/-- Settles O23: extraction and insertion are inverse to each other between the values in range and the words under
the mask. -/
theorem unpackOfPackIsTheValueAndConversely : Obligations.UnpackOfPackIsTheValueAndConversely := by
  intro s k hinv hv
  refine ⟨fun v hle => ?_, fun w => ?_⟩
  · have hadm : (s.slot k).Admits v := ⟨hinv, hv, hle⟩
    have hval : extractField (s.slot k) (insertField (s.slot k) v) = v :=
      extractField_of_and_mask hadm (insertField_and_mask hadm)
    exact ⟨_, _, exec_fpack_value hadm, rfl, exec_funpack_word hv (insertField_lt hadm),
      congrArg (Resp.mk 0 · 0 0 0 0) hval⟩
  · have hval : insertField (s.slot k) (extractField (s.slot k) w.zext) = (w &&& (s.slot k).mask).zext :=
      (insertField_extractField hinv hv w.zext).trans BitVec.setWidth_and.symm
    exact ⟨_, _, exec_funpack_word hv (Word.zext_lt w), rfl, exec_fpack_value (admits_extractField hinv hv w.zext),
      congrArg (Resp.mk 0 · 0 0 0 0) hval⟩

/-- The OR of packed parts in the order and the form of R74. -/
theorem foldl_shiftLeft_eq_orParts {s : State} {parts : List (SlotIx × Operand)}
    (h : ∀ q ∈ parts, (s.slot q.1).Admits q.2) (w : Operand) :
    parts.foldl (fun (x : Operand) q => x ||| q.2.shiftLeft ((s.slot q.1).lsb.toNat - 1)) w =
      w ||| orParts s parts := by
  induction parts generalizing w with
  | nil => exact BitVec.or_zero.symm
  | cons q rest ih =>
    obtain ⟨hq, hrest⟩ := List.forall_mem_cons.mp h
    rw [List.foldl_cons, ih hrest, BitVec.or_assoc]
    exact congrArg (fun x => w ||| (x ||| orParts s rest)) (insertField_eq_shiftLeft hq.legal q.2).symm

/-- Settles O24: among parts that do not overlap, each mask shows its own part of their OR. -/
theorem wordBuiltByOrUnpacksToItsParts : Obligations.WordBuiltByOrUnpacksToItsParts := by
  intro s parts (hadm : ∀ q ∈ parts, (s.slot q.1).Admits q.2)
  obtain ⟨t, ht, hfd, hpar⟩ := packParts_eq parts 0 hadm
  have hz : (0 : Operand) ||| orParts s parts = orParts s parts := BitVec.zero_or
  have hlt : (orParts s parts).toNat < 2 ^ 32 :=
    lt_of_and_maxWord (orParts_and_eq_self fun q hq => insertField_and_maxWord (hadm q hq))
  rw [hz] at ht
  refine ⟨orParts s parts, t, ht, hfd, hpar, ?_, fun hd q hq => ?_⟩
  · rw [foldl_shiftLeft_eq_orParts hadm, hz]
  · have hslot : t.slot q.1 = s.slot q.1 := State.slot_of_fd hfd q.1
    have hv : (t.slot q.1).valid = true := by rw [hslot]; exact (hadm q hq).valid
    have hval : extractField (s.slot q.1) (orParts s parts) = q.2 :=
      extractField_of_and_mask (hadm q hq) (orParts_and_mask hadm hd hq)
    rw [exec_funpack_word hv hlt, hslot, hval]

/-- Settles O26: an extracted value is a remainder modulo 2^size, a packed value lies under its mask, and a mask is a
32-bit word. -/
theorem fieldResultsFitTheirWidth : Obligations.FieldResultsFitTheirWidth := by
  intro s t k hinv
  refine ⟨fun h hok => ?_, fun h => ?_, fun h => ?_⟩
  · obtain ⟨e, rfl⟩ | ⟨hv, -, -, rfl⟩ := exec_funpack_next h
    · exact absurd ((errorResp_status e).symm.trans hok) (errorCode_range e).1
    · have hlt := extractField_lt hinv hv s.opnd
      exact ⟨hlt, fun j hj => Nat.testBit_lt_two_pow (hlt.trans_le (Nat.pow_le_pow_right (by decide) hj))⟩
  · obtain ⟨e, rfl⟩ | ⟨hv, h0, hb, rfl⟩ := exec_fpack_next h
    · rw [State.setResp_resp, errorResp_result]; decide
    · exact insertField_lt (admits_of_s64 hinv hv h0 hb)
  · cases hv : (s.slot k).valid
    · rw [exec_of_missingInstance (i := .ffoot k) hv] at h; cases h
      exact Nat.two_pow_pos 32
    · rw [exec_ffoot_of_valid hv] at h; cases h
      exact Word.zext_lt _

/-- Settles O27: the constructed slot has width 0, so its mask, its bound and everything below 2^size are 0. -/
theorem zeroWidthFieldsHoldOnlyZero : Obligations.ZeroWidthFieldsHoldOnlyZero := by
  intro s k l hl h33
  have hf : legalField l 0 = true := (legalField_iff l 0).mpr ⟨hl, h33⟩
  obtain ⟨t, ht⟩ := exec_total (.fcfg k l 0) s
  have hok : t.resp.status = 0 := by rw [exec_fcfg_of_legal hf] at ht; cases ht; rfl
  have hslot : t.slot k = ⟨true, l, 0, s.opnd, fieldMask l 0⟩ := exec_fcfg_slot_self ⟨hl, h33⟩ ht
  have hinv : (t.slot k).Inv := hslot ▸ Slot.inv_of_legalField hf s.opnd
  have hv : (t.slot k).valid = true := by rw [hslot]
  have hz : (t.slot k).size = 0 := by rw [hslot]
  have hm : (t.slot k).mask = 0 := by rw [hslot, fieldMask_size_zero]
  refine ⟨t, ht, hok, hm, ?_, fun w => ?_, ?_, fun v hne => ?_, exec_feq_of_equal ?_, ?_⟩
  · rw [exec_ffoot_of_valid hv, hm]; rfl
  · rw [exec_funpack_word hv (Word.zext_lt w), extractField_of_size_zero hinv hv hz]
  · rw [exec_fpack_value ⟨hinv, hv, Nat.zero_le _⟩, insertField_zero (Slot.legal_of_inv hinv hv)]
  · have hexec := exec_fpack_of_size_zero (s := { t with opnd := v }) hv hz hne
    have hname : (State.slot { t with opnd := v } k).name = s.opnd := congrArg Slot.name hslot
    rwa [hname] at hexec
  · rw [fieldsEqual_self, hv]
  · rw [exec_fdesc_of_valid hv, descAux_of_size_zero hz, hslot]; rfl

/-- Settles O28: the first command writes the response alone, which the second does not read. -/
theorem readOnlyCommandsDoNotDisturbEachOther : Obligations.ReadOnlyCommandsDoNotDisturbEachOther := by
  intro s t u i j p hi _ ht hu
  obtain ⟨r, rfl⟩ := exec_readOnly hi ht
  exact (exec_setResp j s r).trans hu

/-! ## The statements about one command -/

/-- Settles O14, from FCFG's two rules and the form of the mask. -/
theorem fcfgConstructsAField : Obligations.FcfgConstructsAField := by
  intro s k l z
  refine ⟨fun h => ?_, fun h => ?_⟩
  · rw [exec_fcfg_of_legal ((legalField_iff l z).mpr h), fieldMask_eq_ofNat]; rfl
  · exact exec_fcfg_of_illegal (by rwa [legalField_iff]) k s

/-- Settles O15, from FFOOT's two rules. -/
theorem ffootReturnsTheMask : Obligations.FfootReturnsTheMask := fun _ k =>
  ⟨exec_ffoot_of_valid, exec_of_missingInstance (i := .ffoot k)⟩

/-- Settles O16: the two bounds exclude each other, and between them OPND is a 32-bit word. -/
theorem funpackExtracts : Obligations.FunpackExtracts := by
  intro s k
  refine ⟨exec_of_missingInstance (i := .funpack k), exec_funpack_of_negative, exec_funpack_of_above,
    fun hv h0 hmax hl hz => ?_⟩
  rw [exec_funpack_of_word hv (toNat_lt_of_s64 h0 hmax),
    extractField_eq_ushiftRight ((legalField_iff _ _).mpr ⟨hl, hz⟩)]
  rfl

/-- Settles O17: the two bounds exclude each other, and between them the value is in range. -/
theorem fpackInserts : Obligations.FpackInserts := by
  intro s k
  refine ⟨exec_of_missingInstance (i := .fpack k), exec_fpack_of_negative, exec_fpack_of_above,
    fun hv h0 hmax hl hz => ?_⟩
  rw [exec_fpack_of_inRange hv h0 hmax, insertField_eq_shiftLeft ((legalField_iff _ _).mpr ⟨hl, hz⟩)]
  rfl

/-- Settles O18, from FEQ's two rules. -/
theorem feqComparesTwoFields : Obligations.FeqComparesTwoFields := by
  intro s a b
  rw [← fieldsEqual_iff]
  exact ⟨exec_feq_of_equal, exec_feq_of_different⟩

/-- Settles O19, from the layout of FDESC's second result. -/
theorem fdescExportsTheAttributes : Obligations.FdescExportsTheAttributes := fun _ k =>
  ⟨fun hv => ⟨_, exec_fdesc_of_valid hv, descAux_lsb _, descAux_size _, descAux_rest _⟩,
    exec_of_missingInstance (i := .fdesc k)⟩

end Sys2Proof.Machine

/-! # Proofs about the Parity commands

SUPPORT. The parity word by the count of ones, what each Parity command does once its guards are decided, the
lifetime of a parity unit, and the statements of the family 41_parity.md. -/

namespace Sys2Proof.Machine

/-! ## The parity word (R81, R82, R90) -/

/-- An even count leaves the parity bit to the odd convention (R81). -/
theorem pbit_of_even_count {p : Operand} (h : popcountLow 31 p.toNat % 2 = 0) :
    pbit p 0b01 = parityBit ∧ pbit p 0b10 = 0 := by
  rw [pbit_odd, pbit_even, if_pos h, if_neg (by omega)]
  exact ⟨rfl, rfl⟩

/-- An odd count leaves the parity bit to the even convention (R81). -/
theorem pbit_of_odd_count {p : Operand} (h : popcountLow 31 p.toNat % 2 = 1) :
    pbit p 0b01 = 0 ∧ pbit p 0b10 = parityBit := by
  rw [pbit_odd, pbit_even, if_neg (by omega), if_pos h]
  exact ⟨rfl, rfl⟩

/-- Under a convention, the parity word reads the payload through the count alone. -/
theorem pbit_congr {p q : Operand} {c : ConvCode} (hc : c = 0b01 ∨ c = 0b10)
    (h : popcountLow 31 p.toNat = popcountLow 31 q.toNat) : pbit p c = pbit q c := by
  rcases hc with rfl | rfl
  · rw [pbit_odd, pbit_odd, h]
  · rw [pbit_even, pbit_even, h]

/-- The count does not see bit 32 and above (R90). -/
theorem popcountLow_and_low (p : Operand) : popcountLow 31 (p &&& 0x7FFFFFFF).toNat = popcountLow 31 p.toNat := by
  have hmask : ∀ j < 31, (0x7FFFFFFF : Operand).getLsbD j = true := by decide
  refine popcountLow_congr fun j hj => ?_
  change BitVec.getLsbD _ j = p.getLsbD j
  rw [BitVec.getLsbD_and, hmask j hj, Bool.and_true]

/-- The parity word's own count of ones is its bit 32 (R92). -/
theorem onesBelow_pbit (p : Operand) {c : ConvCode} (hc : c = 0b01 ∨ c = 0b10) :
    onesBelow 32 (pbit p c).zext = ((pbit p c).getLsbD 31).toNat := by
  obtain h | h := pbit_cases p hc <;> rw [h] <;> decide

/-- Zero-extended, the parity word of a convention is bit 32 alone or nothing (R92). -/
theorem pbit_zext_cases (p : Operand) {c : ConvCode} (hc : c = 0b01 ∨ c = 0b10) :
    (pbit p c).zext = 0x80000000 ∨ (pbit p c).zext = 0 := by
  obtain h | h := pbit_cases p hc <;> rw [h]
  · exact .inl rfl
  · exact .inr rfl

/-! ## Single commands: what they do once their guards are decided (R83, R85 to R87) -/

/-- The codes that name no convention (R50, R83). -/
theorem not_legalConv_iff (c : ConvCode) : ¬ legalConv c = true ↔ c = 0b00 ∨ c = 0b11 := by
  revert c; decide

/-- A command on a constructed parity unit without a payload reports exactly that (R96 code 4). -/
theorem exec_of_missingData {i : Instr} {s : State} (hi : ¬ MissingInstance i s) (hd : MissingData i s) :
    exec i s = .next (s.setResp (errorResp .noDataError)) := by
  cases i
  case pget | ppack => exact (if_pos ((Bool.not_eq_false _).mp hi)).trans (if_neg (Bool.eq_false_iff.mp hd))
  all_goals exact hd.elim

/-- PGET of a payload (R85, R91). -/
theorem exec_pget_of_data {s : State} (hv : s.par.pvalid = true) (hd : s.par.dvalid = true) :
    exec .pget s = .next (s.setResp ⟨0, s.par.pdata, 0, 0, 0, 0⟩) := by
  rw [exec, execPget, if_pos hv, if_pos hd]; rfl

theorem exec_pcomp_of_legal {c : ConvCode} (h : legalConv c = true) (s : State) :
    exec (.pcomp c) s = .next (s.setResp ⟨0, (pbit s.opnd c).zext, 0, 0, 0, 0⟩) := if_pos h

theorem exec_pcomp_of_illegal {c : ConvCode} (h : ¬ legalConv c = true) (s : State) :
    exec (.pcomp c) s = .next (s.setResp (errorResp .conventionError)) := if_neg h

/-- Everything PPACK can do. -/
theorem exec_ppack_next {s t : State} (h : exec .ppack s = .next t) :
    (∃ e, t = s.setResp (errorResp e)) ∨
    (s.par.pvalid = true ∧ s.par.dvalid = true ∧
      t = s.setResp ⟨0, (pbit s.par.pdata s.par.conv).zext, 0, 0, 0, 0⟩) := by
  rw [exec, execPpack] at h
  split_ifs at h with hv hd
  · exact .inr ⟨hv, hd, respondOk_next h⟩
  · exact .inl ⟨_, raise_next h⟩
  · exact .inl ⟨_, raise_next h⟩

/-- Everything PCOMP can do. -/
theorem exec_pcomp_next {c : ConvCode} {s t : State} (h : exec (.pcomp c) s = .next t) :
    (∃ e, t = s.setResp (errorResp e)) ∨
    (legalConv c = true ∧ t = s.setResp ⟨0, (pbit s.opnd c).zext, 0, 0, 0, 0⟩) := by
  rw [exec, execPcomp] at h
  split_ifs at h with hc
  · exact .inr ⟨hc, respondOk_next h⟩
  · exact .inl ⟨_, raise_next h⟩

/-- A response that says OK is not the response of an error. -/
theorem errorResp_not_ok (e : ErrorKind) : ¬ (errorResp e).status = 0 := by
  rw [errorResp_status]
  exact (errorCode_range e).1

/-! ## The lifetime of a parity unit (R21, R93) -/

/-- What a command can do to the parity unit's lifetime: begin one, without data, or keep the convention and any
data. -/
theorem exec_lifetime {i : Instr} {s t : State} (h : exec i s = .next t) :
    (∃ c, i = .pcfg c ∧ t.resp.status = 0 ∧ t.par.dvalid = false) ∨
    (t.par.conv = s.par.conv ∧ (s.par.dvalid = true → t.par.dvalid = true)) := by
  obtain ⟨e, rfl⟩ | ⟨r, a, rfl⟩ | ⟨k, l, z, -, -, rfl⟩ | ⟨c, rfl, -, rfl⟩ | ⟨-, -, rfl⟩ := exec_next h
  case inr.inr.inr.inl => exact .inl ⟨c, rfl, rfl, rfl⟩
  case inr.inr.inr.inr => exact .inr ⟨rfl, fun _ => rfl⟩
  all_goals exact .inr ⟨rfl, id⟩

/-- A command that is neither PSET nor a PCFG with a legal code writes nothing in the parity unit (R21, R83). -/
theorem exec_keeps_par {i : Instr} {s t : State} (h : exec i s = .next t) (hp : i ≠ .pset)
    (hc : ∀ c, i = .pcfg c → ¬ legalConv c = true) : t.par = s.par := by
  obtain ⟨e, rfl⟩ | ⟨r, a, rfl⟩ | ⟨k, l, z, -, -, rfl⟩ | ⟨c, hi, hl, -⟩ | ⟨hi, -, -⟩ := exec_next h
  case inr.inr.inr.inl => exact absurd hl (hc c hi)
  case inr.inr.inr.inr => exact absurd hi hp
  all_goals rfl

/-- The host presents a word that is no PSET and no PCFG with a legal code; the word may be illegal. -/
abbrev HostEvent.KeepsParity (e : HostEvent) : Prop :=
  ∃ w o, e = .command w o ∧ decode w ≠ .ok .pset ∧ ∀ c, decode w = .ok (.pcfg c) → c = 0b00 ∨ c = 0b11

theorem deliver_keeps_par {e : HostEvent} {s t : State} (he : e.KeepsParity) (h : deliver e s = .next t) :
    t.par = s.par := by
  obtain ⟨w, o, rfl, hp, hc⟩ := he
  rw [deliver_command] at h
  cases hd : decode w with
  | ok i =>
    rw [performPort_of_ok (i := i) hd] at h
    rw [hd] at hp hc
    exact exec_keeps_par (s := s.drive w o) h (fun hi => hp (hi ▸ rfl)) fun c hi =>
      (not_legalConv_iff c).mpr (hc c (hi ▸ rfl))
  | error e =>
    rw [performPort_of_error (e := e) hd] at h
    rw [raise_next h]; rfl

theorem observe_keeps_par {es : List HostEvent} (hes : ∀ e ∈ es, e.KeepsParity) (s : State) :
    (observe es s).2.par = s.par := by
  induction es generalizing s with
  | nil => rfl
  | cons e es ih =>
    obtain ⟨he, hrest⟩ := List.forall_mem_cons.mp hes
    obtain ⟨t, ht⟩ := deliver_total e s
    rw [observe_cons _ ht]
    exact (ih hrest t).trans (deliver_keeps_par he ht)

/-- After a PSET on a constructed unit, events that keep the parity unit leave its payload in place. -/
theorem observe_pset_par {es : List HostEvent} {s : State} (hv : s.par.pvalid = true)
    (hes : ∀ e ∈ es, e.KeepsParity) (p : Operand) :
    (observe (.command (encode .pset) p :: es) s).2.par = ⟨true, s.par.conv, true, p⟩ := by
  have hset := (deliver_encode .pset p s).trans (exec_pset_of_constructed (s := s.drive (encode .pset) p) hv)
  rw [observe_cons _ hset]
  refine (observe_keeps_par hes _).trans ?_
  rw [← hv]; rfl

/-- The final state of a run whose last event is a command of the block. -/
theorem observe_concat_of_exec {es : List HostEvent} {i : Instr} {o : Operand} {s t : State}
    (h : exec i ((observe es s).2.drive (encode i) o) = .next t) :
    (observe (es ++ [.command (encode i) o]) s).2 = t := by
  rw [observe_append, observe_cons [] ((deliver_encode i o _).trans h)]; rfl

/-! ## The statements about the parity word -/

/-- Settles O29, from the parity word at each parity of the count. -/
theorem parityWordFollowsTheCount : Obligations.ParityWordFollowsTheCount := by
  intro p
  rw [onesBelow_eq_popcountLow]
  exact ⟨pbit_of_even_count, pbit_of_odd_count⟩

/-- Settles O30: the XOR of the bits is 1 exactly when their count is odd. -/
theorem parityTreeGivesTheParityWord : Obligations.ParityTreeGivesTheParityWord := by
  intro p
  rw [xorLow_eq_odd]
  obtain h | h := Nat.mod_two_eq_zero_or_one (popcountLow 31 p.toNat)
  · obtain ⟨ho, he⟩ := pbit_of_even_count h
    rw [ho, he, h]; decide
  · obtain ⟨ho, he⟩ := pbit_of_odd_count h
    rw [ho, he, h]; decide

/-- Settles O31: the parity word adds its bit 32 to the count, beside the payload or joined with it. -/
theorem completedWordHasTheNamedParity : Obligations.CompletedWordHasTheNamedParity := by
  refine fun p c hc => ⟨?_, onesBelow_completed p hc⟩
  rw [onesBelow_eq_popcountLow 31, onesBelow_pbit p hc]
  exact popcountLow_add_pbit p hc

/-- Settles O32: exactly one convention sets bit 32, and the count does not see bit 32 of the payload and above. -/
theorem conventionsAreComplementsAndHighBitsAreIgnored :
    Obligations.ConventionsAreComplementsAndHighBitsAreIgnored := by
  refine ⟨fun p => ?_, fun p q c hc hpq => pbit_congr hc ?_⟩
  · obtain h | h := Nat.mod_two_eq_zero_or_one (popcountLow 31 p.toNat)
    · obtain ⟨ho, he⟩ := pbit_of_even_count h
      rw [ho, he]; rfl
    · obtain ⟨ho, he⟩ := pbit_of_odd_count h
      rw [ho, he]; rfl
  · rw [← popcountLow_and_low p, hpq, popcountLow_and_low]

/-! ## The statements about several commands -/

/-- Settles O38: an OK response of PPACK or PCOMP holds a parity word, and its convention is legal by the parity-unit
invariant or by PCOMP's own check. -/
theorem parityResultIsBit32OrNothing : Obligations.ParityResultIsBit32OrNothing := by
  rintro s t ⟨-, hconv, -⟩
  refine ⟨fun h hok => ?_, fun c h hok => ?_⟩
  · obtain ⟨e, rfl⟩ | ⟨hv, -, rfl⟩ := exec_ppack_next h
    · exact absurd hok (errorResp_not_ok e)
    · exact pbit_zext_cases _ (hconv hv)
  · obtain ⟨e, rfl⟩ | ⟨hc, rfl⟩ := exec_pcomp_next h
    · exact absurd hok (errorResp_not_ok e)
    · exact pbit_zext_cases _ ((legalConv_iff c).mp hc)

/-- Settles O39: PCFG and PSET leave exactly the payload and the convention that PCOMP is given. -/
theorem statefulSequenceEqualsPcomp : Obligations.StatefulSequenceEqualsPcomp := by
  intro s c p hc
  have hl : legalConv c = true := (legalConv_iff c).mpr hc
  exact ⟨_, _, _, _, exec_pcfg_of_legal hl s, exec_pset_of_constructed rfl, exec_ppack_of_data rfl rfl,
    exec_pcomp_of_legal hl _, rfl, rfl, rfl, rfl⟩

/-- Settles O40: events that write nothing in the parity unit, by induction on their list, leave to PGET and PPACK the
convention and the payload that stood after PSET. -/
theorem parityLifetimeKeepsConventionAndLastPayload : Obligations.ParityLifetimeKeepsConventionAndLastPayload := by
  refine ⟨fun s t i => exec_lifetime, fun s hv => ?_, fun s p es hv hes => ?_⟩
  · exact ⟨⟨_, exec_pset_of_constructed hv, rfl⟩, _, deliver_reset s, rfl⟩
  · have hpar := observe_pset_par hv hes p
    have hvalid := congrArg Par.pvalid hpar
    have hdata := congrArg Par.dvalid hpar
    refine ⟨?_, ?_⟩
    · rw [observe_concat_of_exec (exec_pget_of_data hvalid hdata), State.setResp_resp, State.drive_par, hpar]
    · rw [observe_concat_of_exec (exec_ppack_of_data hvalid hdata), State.setResp_resp, State.drive_par, hpar]

/-! ## The statements about one command -/

/-- Settles O33, from PCFG's two rules. -/
theorem pcfgConstructsTheParityUnit : Obligations.PcfgConstructsTheParityUnit := fun s c =>
  ⟨fun h => exec_pcfg_of_legal ((legalConv_iff c).mpr h) s,
    fun h => exec_pcfg_of_illegal ((not_legalConv_iff c).mpr h) s⟩

/-- Settles O34, from PSET's two rules. -/
theorem psetStoresThePayload : Obligations.PsetStoresThePayload := fun _ =>
  ⟨exec_pset_of_constructed, exec_of_missingInstance (i := .pset)⟩

/-- Settles O35, from PGET's success and the two shared errors. -/
theorem pgetReturnsThePayload : Obligations.PgetReturnsThePayload := fun _ =>
  ⟨exec_pget_of_data, fun hv => exec_of_missingData (i := .pget) (ne_false_of_eq_true hv),
    exec_of_missingInstance (i := .pget)⟩

/-- Settles O36, from PPACK's success and the two shared errors. -/
theorem ppackReturnsTheParityWord : Obligations.PpackReturnsTheParityWord := fun _ =>
  ⟨exec_ppack_of_data, fun hv => exec_of_missingData (i := .ppack) (ne_false_of_eq_true hv),
    exec_of_missingInstance (i := .ppack)⟩

/-- Settles O37, from PCOMP's two rules. -/
theorem pcompReturnsTheParityWordOfItsOperand : Obligations.PcompReturnsTheParityWordOfItsOperand := fun s c =>
  ⟨fun h => exec_pcomp_of_legal ((legalConv_iff c).mpr h) s,
    fun h => exec_pcomp_of_illegal ((not_legalConv_iff c).mpr h) s⟩

end Sys2Proof.Machine

/-! # Proofs about the error response

SUPPORT. Which STATUS a command reports, said once as the order of R101 and once code by code as in R96's table, and
the statements of the family 60_exceptions.md. -/

namespace Sys2Proof.Machine

/-! ## The conditions of R101, command by command -/

theorem noInstanceError_cause_iff (i : Instr) (s : State) : MissingInstance i s ↔
    (∃ k, (i = .ffoot k ∨ i = .funpack k ∨ i = .fpack k ∨ i = .fdesc k) ∧ (s.slot k).valid = false) ∨
      ((i = .pset ∨ i = .pget ∨ i = .ppack) ∧ s.par.pvalid = false) := by
  cases i <;> simp [MissingInstance]

/-- NoDataError comes after the check that the parity unit is constructed. -/
theorem noDataError_cause_iff (i : Instr) (s : State) : ¬ MissingInstance i s ∧ MissingData i s ↔
    (i = .pget ∨ i = .ppack) ∧ s.par.pvalid = true ∧ s.par.dvalid = false := by
  cases i <;> simp [MissingInstance, MissingData]

/-! The codes 1, 2 and 3 are for a command whose slot or parity unit and payload are in place. -/

/-- Only FCFG reports StructureError. -/
theorem structureError_cause_iff (i : Instr) (s : State) :
    (¬ MissingInstance i s ∧ ¬ MissingData i s ∧ OwnCheckFails i s = some 1) ↔
      ∃ k l z, i = .fcfg k l z ∧ ¬ (1 ≤ l.toNat ∧ l.toNat + z.toNat ≤ 33) := by
  cases i <;> simp [MissingInstance, MissingData, OwnCheckFails]

/-- Only FUNPACK and FPACK report RangeError, for a constructed field and an OPND out of the command's bounds. -/
theorem rangeError_cause_iff (i : Instr) (s : State) :
    (¬ MissingInstance i s ∧ ¬ MissingData i s ∧ OwnCheckFails i s = some 2) ↔
      ∃ k, (s.slot k).valid = true ∧
        ((i = .funpack k ∧ (s.opnd.toInt < 0 ∨ 0xFFFFFFFF < s.opnd.toInt)) ∨
         (i = .fpack k ∧ (s.opnd.toInt < 0 ∨ 2 ^ (s.slot k).size.toNat - 1 < s.opnd.toInt))) := by
  cases i <;> simp [MissingInstance, MissingData, OwnCheckFails, or_iff_not_imp_left]

/-- Only PCFG and PCOMP report ConventionError, for the two codes that name no convention. -/
theorem conventionError_cause_iff (i : Instr) (s : State) :
    (¬ MissingInstance i s ∧ ¬ MissingData i s ∧ OwnCheckFails i s = some 3) ↔
      ∃ c, (i = .pcfg c ∨ i = .pcomp c) ∧ (c = 0b00 ∨ c = 0b11) := by
  cases i
  case pcfg c | pcomp c =>
    simpa [MissingInstance, MissingData, OwnCheckFails, legalConv_iff] using not_legalConv_iff c
  all_goals simp [MissingInstance, MissingData, OwnCheckFails]

/-- The codes above 3 are left to the checks that come first and to the decoder. -/
theorem ownCheckFails_getD_ne (i : Instr) (s : State) {c : BitVec 4} (hc : 3 < c.toNat) :
    (OwnCheckFails i s).getD 0 ≠ c := by
  have hcode : ((OwnCheckFails i s).getD 0).toNat ≤ 3 := by
    cases i
    case fcfg | funpack | fpack | pcfg | pcomp => simp only [OwnCheckFails]; split <;> simp
    all_goals simp [OwnCheckFails]
  rintro rfl
  exact not_le.mpr hc hcode

/-! ## The command's own check (R63, R65, R66, R83, R87, R101 item 4) -/

/-- The STATUS of a command whose own check `p` decides between OK and the code `c`. -/
theorem status_of_check {o : Result} {p : Prop} [Decidable p] {c : BitVec 4} {t : State} (h : o = .next t)
    (hok : p → ∃ u, o = .next u ∧ u.resp.status = 0) (hfail : ¬ p → ∃ u, o = .next u ∧ u.resp.status = c) :
    t.resp.status = (if p then none else some c).getD 0 := by
  by_cases hp : p
  · obtain ⟨u, rfl, hu⟩ := hok hp
    cases h; rw [if_pos hp]; exact hu
  · obtain ⟨u, rfl, hu⟩ := hfail hp
    cases h; rw [if_neg hp]; exact hu

section
variable {s t : State} {k : SlotIx} {c : ConvCode}

theorem exec_fcfg_status {l z : UInt6} (h : exec (.fcfg k l z) s = .next t) :
    t.resp.status = (OwnCheckFails (.fcfg k l z) s).getD 0 :=
  status_of_check h (fun hf => ⟨_, exec_fcfg_of_legal ((legalField_iff l z).mpr hf) k s, rfl⟩)
    fun hf => ⟨_, exec_fcfg_of_illegal (mt (legalField_iff l z).mp hf) k s, rfl⟩

theorem exec_funpack_status (hv : (s.slot k).valid = true) (h : exec (.funpack k) s = .next t) :
    t.resp.status = (OwnCheckFails (.funpack k) s).getD 0 := by
  refine status_of_check h (fun ⟨h0, hmax⟩ => ⟨_, exec_funpack_of_word hv (toNat_lt_of_s64 h0 hmax), rfl⟩)
    fun hr => ?_
  obtain hlow | hhigh := not_and_or.mp hr
  · exact ⟨_, exec_funpack_of_negative hv (not_le.mp hlow), rfl⟩
  · exact ⟨_, exec_funpack_of_above hv (not_le.mp hhigh), rfl⟩

theorem exec_fpack_status (hv : (s.slot k).valid = true) (h : exec (.fpack k) s = .next t) :
    t.resp.status = (OwnCheckFails (.fpack k) s).getD 0 := by
  refine status_of_check h (fun ⟨h0, hmax⟩ => ⟨_, exec_fpack_of_inRange hv h0 hmax, rfl⟩) fun hr => ?_
  obtain hlow | hhigh := not_and_or.mp hr
  · exact ⟨_, exec_fpack_of_negative hv (not_le.mp hlow), rfl⟩
  · exact ⟨_, exec_fpack_of_above hv (not_le.mp hhigh), rfl⟩

theorem exec_pcfg_status (h : exec (.pcfg c) s = .next t) :
    t.resp.status = (OwnCheckFails (.pcfg c) s).getD 0 :=
  status_of_check h (fun hc => ⟨_, exec_pcfg_of_legal ((legalConv_iff c).mpr hc) s, rfl⟩)
    fun hc => ⟨_, exec_pcfg_of_illegal (mt (legalConv_iff c).mp hc) s, rfl⟩

theorem exec_pcomp_status (h : exec (.pcomp c) s = .next t) :
    t.resp.status = (OwnCheckFails (.pcomp c) s).getD 0 :=
  status_of_check h (fun hc => ⟨_, exec_pcomp_of_legal ((legalConv_iff c).mpr hc) s, rfl⟩)
    fun hc => ⟨_, exec_pcomp_of_illegal (mt (legalConv_iff c).mp hc) s, rfl⟩

end

/-! ## The STATUS that a command reports -/

section
variable {i : Instr} {s t : State} (h : exec i s = .next t)
include h

/-- With the slot or the parity unit and the payload in place, the command's own check decides the STATUS. -/
theorem exec_status_of_ready (hi : ¬ MissingInstance i s) (hd : ¬ MissingData i s) :
    t.resp.status = (OwnCheckFails i s).getD 0 := by
  cases i with
  | fcfg k l z => exact exec_fcfg_status h
  | ffoot k => rw [exec_ffoot_of_valid (eq_true_of_ne_false hi)] at h; cases h; rfl
  | funpack k => exact exec_funpack_status (eq_true_of_ne_false hi) h
  | fpack k => exact exec_fpack_status (eq_true_of_ne_false hi) h
  | feq a b => rw [exec_feq] at h; cases h; rfl
  | fdesc k => rw [exec_fdesc_of_valid (eq_true_of_ne_false hi)] at h; cases h; rfl
  | pcfg c => exact exec_pcfg_status h
  | pset => rw [exec_pset_of_constructed (eq_true_of_ne_false hi)] at h; cases h; rfl
  | pget => rw [exec_pget_of_data (eq_true_of_ne_false hi) (eq_true_of_ne_false hd)] at h; cases h; rfl
  | ppack => rw [exec_ppack_of_data (eq_true_of_ne_false hi) (eq_true_of_ne_false hd)] at h; cases h; rfl
  | pcomp c => exact exec_pcomp_status h

theorem exec_status_of_missingInstance (hi : MissingInstance i s) : t.resp.status = 5 := by
  rw [exec_of_missingInstance hi] at h; cases h; rfl

theorem exec_status_of_missingData (hi : ¬ MissingInstance i s) (hd : MissingData i s) : t.resp.status = 4 := by
  rw [exec_of_missingData hi hd] at h; cases h; rfl

/-- R101's order for a decoded command, as its three exclusive cases. -/
theorem exec_status_cases : (MissingInstance i s ∧ t.resp.status = 5) ∨
    ((¬ MissingInstance i s ∧ MissingData i s) ∧ t.resp.status = 4) ∨
    ((¬ MissingInstance i s ∧ ¬ MissingData i s) ∧ t.resp.status = (OwnCheckFails i s).getD 0) := by
  by_cases hi : MissingInstance i s
  · exact .inl ⟨hi, exec_status_of_missingInstance h hi⟩
  by_cases hd : MissingData i s
  · exact .inr (.inl ⟨⟨hi, hd⟩, exec_status_of_missingData h hi hd⟩)
  · exact .inr (.inr ⟨⟨hi, hd⟩, exec_status_of_ready h hi hd⟩)

theorem exec_status_eq_five_iff : t.resp.status = 5 ↔ MissingInstance i s := by
  obtain ⟨hi, hs⟩ | ⟨⟨hi, -⟩, hs⟩ | ⟨⟨hi, -⟩, hs⟩ := exec_status_cases h <;> rw [hs]
  · exact iff_of_true rfl hi
  · exact iff_of_false (by decide) hi
  · exact iff_of_false (ownCheckFails_getD_ne i s (by decide)) hi

theorem exec_status_eq_four_iff : t.resp.status = 4 ↔ ¬ MissingInstance i s ∧ MissingData i s := by
  obtain ⟨hi, hs⟩ | ⟨hc, hs⟩ | ⟨⟨-, hd⟩, hs⟩ := exec_status_cases h <;> rw [hs]
  · exact iff_of_false (by decide) fun ⟨hn, _⟩ => hn hi
  · exact iff_of_true rfl hc
  · exact iff_of_false (ownCheckFails_getD_ne i s (by decide)) fun ⟨_, hm⟩ => hd hm

/-- A code of a command's own check is reported by that check alone. -/
theorem exec_status_eq_own_iff {c : BitVec 4} (hc : c = 1 ∨ c = 2 ∨ c = 3) :
    t.resp.status = c ↔ ¬ MissingInstance i s ∧ ¬ MissingData i s ∧ OwnCheckFails i s = some c := by
  obtain ⟨h5, h4, h0⟩ : 5 ≠ c ∧ 4 ≠ c ∧ 0 ≠ c := by revert c; decide
  obtain ⟨hi, hs⟩ | ⟨⟨-, hd⟩, hs⟩ | ⟨⟨hi, hd⟩, hs⟩ := exec_status_cases h <;> rw [hs]
  · exact iff_of_false h5 fun ⟨hn, _⟩ => hn hi
  · exact iff_of_false h4 fun ⟨_, hn, _⟩ => hn hd
  · simp only [hi, hd, not_false_eq_true, true_and, Option.getD_eq_iff, h0, and_false, or_false]

/-- No decoded command reports IllegalCommand. -/
theorem exec_status_ne_six : t.resp.status ≠ 6 := by
  obtain ⟨-, hs⟩ | ⟨-, hs⟩ | ⟨-, hs⟩ := exec_status_cases h <;> rw [hs]
  · decide
  · decide
  · exact ownCheckFails_getD_ne i s (by decide)

/-- A command that fails leaves the record of an error and nothing else (R99). -/
theorem exec_failed (hs : t.resp.status ≠ 0) : ∃ e, t = s.setResp (errorResp e) := by
  obtain he | ⟨r, a, rfl⟩ | ⟨k, l, z, -, -, rfl⟩ | ⟨c, -, -, rfl⟩ | ⟨-, -, rfl⟩ := exec_next h
  · exact he
  all_goals exact absurd rfl hs

end

/-! ## The record of a RangeError (R100) -/

/-- FPACK's bound is a signed value that EBOUND holds as it is. -/
theorem u64_packBound_toInt (f : Slot) : (u64 (packBound f)).toInt = packBound f := by
  have hlt := packBound_lt f
  have hnn : 0 ≤ packBound f := Int.sub_nonneg_of_le (one_le_pow₀ (by decide))
  exact BitVec.toInt_ofInt_eq_self (by decide) (by omega) hlt

section
variable {s t : State} {k : SlotIx} (hv : (s.slot k).valid = true)
include hv

theorem exec_funpack_rangeRecord (hr : s.opnd.toInt < 0 ∨ 0xFFFFFFFF < s.opnd.toInt)
    (h : exec (.funpack k) s = .next t) :
    t.resp.ename = (s.slot k).name ∧ t.resp.evalue = s.opnd ∧
      t.resp.ebound.toInt = if s.opnd.toInt < 0 then 0 else 0xFFFFFFFF := by
  by_cases h0 : s.opnd.toInt < 0
  · rw [exec_funpack_of_negative hv h0] at h; cases h
    exact ⟨rfl, rfl, by rw [if_pos h0]; rfl⟩
  · rw [exec_funpack_of_above hv (hr.resolve_left h0)] at h; cases h
    exact ⟨rfl, rfl, by rw [if_neg h0]; rfl⟩

theorem exec_fpack_rangeRecord (hr : s.opnd.toInt < 0 ∨ 2 ^ (s.slot k).size.toNat - 1 < s.opnd.toInt)
    (h : exec (.fpack k) s = .next t) :
    t.resp.ename = (s.slot k).name ∧ t.resp.evalue = s.opnd ∧
      t.resp.ebound.toInt = if s.opnd.toInt < 0 then 0 else 2 ^ (s.slot k).size.toNat - 1 := by
  by_cases h0 : s.opnd.toInt < 0
  · rw [exec_fpack_of_negative hv h0] at h; cases h
    exact ⟨rfl, rfl, by rw [if_pos h0]; rfl⟩
  · rw [exec_fpack_of_above hv (hr.resolve_left h0)] at h; cases h
    exact ⟨rfl, rfl, by rw [if_neg h0]; exact u64_packBound_toInt _⟩

end

/-! ## The command port (R54, R58, R99) -/

theorem performPort_of_illegal {s : State} (h : IllegalWord s.cmd) :
    performPort s = .next (s.setResp (errorResp .illegalCommand)) := by
  obtain ⟨hill, -⟩ := illegalWordsFailAndAllOthersAreLegal s
  exact hill h

section
variable {s t : State} (h : performPort s = .next t)
include h

/-- Only the decoder reports IllegalCommand. -/
theorem performPort_status_eq_six_iff : t.resp.status = 6 ↔ IllegalWord s.cmd := by
  by_cases hi : IllegalWord s.cmd
  · rw [performPort_of_illegal hi] at h; cases h
    exact iff_of_true rfl hi
  · obtain ⟨i, hd⟩ := (decode_ok_iff_legal s.cmd).mpr hi
    rw [performPort_of_ok hd] at h
    exact iff_of_false (exec_status_ne_six h) hi

theorem performPort_failed (hs : t.resp.status ≠ 0) : ∃ e, t = s.setResp (errorResp e) := by
  obtain ⟨i, hi⟩ | rfl := performPort_next h
  · exact exec_failed hi hs
  · exact ⟨_, rfl⟩

/-- A RangeError comes from a command that decodes, since the decoder raises another code. -/
theorem performPort_rangeError (hs : t.resp.status = 2) : ∃ i, decode s.cmd = .ok i ∧ exec i s = .next t := by
  have hlegal : ¬ IllegalWord s.cmd := by rw [← performPort_status_eq_six_iff h, hs]; decide
  obtain ⟨i, hd⟩ := (decode_ok_iff_legal s.cmd).mpr hlegal
  exact ⟨i, hd, (performPort_of_ok hd).symm.trans h⟩

end

/-! ## The step (R31, R115) -/

/-- A step with no event left keeps the state. -/
theorem nextEvent_nil {s : State} (h : s.program = []) : nextEvent s = .next s := by
  rw [nextEvent, h]

/-! ## The statements -/

/-- Settles O55: a word is illegal or decodes, and a decoded command meets its checks in the order of R101. -/
theorem firstErrorInTheOrderIsReported : Obligations.FirstErrorInTheOrderIsReported := by
  refine fun s => ⟨fun hi => ⟨_, performPort_of_illegal hi, rfl⟩, fun i hd => ?_⟩
  obtain ⟨t, ht⟩ := exec_total i s
  exact ⟨t, (performPort_of_ok hd).trans ht, exec_status_of_missingInstance ht, exec_status_of_missingData ht,
    exec_status_of_ready ht⟩

/-- Settles O53: each code is reported by one check of R101's order, and each check belongs to the commands of R96. -/
theorem statusNamesItsCause : Obligations.StatusNamesItsCause := by
  intro s t h
  obtain ⟨hmax, -, -⟩ := performPort_resp_inv h
  refine ⟨hmax, performPort_status_eq_six_iff h, fun i hd => ?_⟩
  rw [performPort_of_ok hd] at h
  exact ⟨(exec_status_eq_own_iff h (by decide)).trans (structureError_cause_iff i s),
    (exec_status_eq_own_iff h (by decide)).trans (rangeError_cause_iff i s),
    (exec_status_eq_own_iff h (by decide)).trans (conventionError_cause_iff i s),
    (exec_status_eq_four_iff h).trans (noDataError_cause_iff i s),
    (exec_status_eq_five_iff h).trans (noInstanceError_cause_iff i s)⟩

/-- Settles O54: RangeError's cause names the command, the slot and the bound, and every other record has zeros. -/
theorem rangeErrorRecordsNameBoundAndValue : Obligations.RangeErrorRecordsNameBoundAndValue := by
  intro s t h
  obtain ⟨-, -, hzero⟩ := performPort_resp_inv h
  refine ⟨fun hs => ?_, hzero⟩
  obtain ⟨i, hd, hi⟩ := performPort_rangeError h hs
  obtain ⟨k, hv, ⟨rfl, hr⟩ | ⟨rfl, hr⟩⟩ :=
    (rangeError_cause_iff i s).mp ((exec_status_eq_own_iff hi (by decide)).mp hs)
  · obtain ⟨hname, hval, hbound⟩ := exec_funpack_rangeRecord hv hr hi
    exact ⟨k, hname, hval, .inl ⟨hd, hbound⟩⟩
  · obtain ⟨hname, hval, hbound⟩ := exec_fpack_rangeRecord hv hr hi
    exact ⟨k, hname, hval, .inr ⟨hd, hbound⟩⟩

/-- Settles O52: a failed command leaves the record of an error, and every record has the form of R99. -/
theorem failedCommandChangesOnlyTheResponse : Obligations.FailedCommandChangesOnlyTheResponse := by
  intro s t h hs
  obtain ⟨e, rfl⟩ := performPort_failed h hs
  obtain ⟨-, hfail, hzero⟩ := performPort_resp_inv h
  obtain ⟨hresult, haux⟩ := hfail hs
  exact ⟨rfl, hresult, haux, hzero⟩

/-- Settles O9, by the step's rule for a host that presents nothing (log entry 2). -/
theorem stepWithoutAnEventKeepsTheState : Obligations.StepWithoutAnEventKeepsTheState := fun _ => nextEvent_nil

end Sys2Proof.Machine

/-! # Proofs about reset and hazards

SUPPORT. Steps always end, a reset gives back R29's values, only a reset unconstructs, and the statements of the
family 70_reset_and_hazards.md. -/

namespace Sys2Proof.Machine

/-! ## Every step ends, and no command sees the response before it (R25, R58, R128) -/

theorem step_total (s : State) : ∃ t, step s = .next t := by
  cases hp : s.program with
  | nil => exact ⟨s, nextEvent_nil hp⟩
  | cons e es =>
    rw [step, nextEvent_cons hp]
    exact deliver_total e _

theorem performPort_setResp (s : State) (r : Resp) : performPort (s.setResp r) = performPort s := by
  cases hd : decode s.cmd with
  | ok i => rw [performPort_of_ok hd, performPort_of_ok (by exact hd), exec_setResp]
  | error e => rw [performPort_of_error hd, performPort_of_error (by exact hd)]; rfl

theorem deliver_command_setResp (c : Word) (o : Operand) (s : State) (r : Resp) :
    deliver (.command c o) (s.setResp r) = deliver (.command c o) s :=
  performPort_setResp (s.drive c o) r

/-! ## The reset (R29, R116) -/

/-- A reset leaves R29's state but for what is no state of the block (log entry 6). -/
theorem applyReset_eq (s : State) :
    applyReset s = { State.reset with cmd := s.cmd, opnd := s.opnd, program := s.program } := rfl

/-- The events of an observation are none of those that the state still holds. -/
theorem observe_program (es : List HostEvent) (s : State) : (observe es s).2.program = s.program := by
  induction es generalizing s with
  | nil => rfl
  | cons e es ih =>
    obtain ⟨t, ht⟩ := deliver_total e s
    rw [observe_cons _ ht]
    exact (ih t).trans (deliver_program ht)

theorem observe_concat_reset (es : List HostEvent) (s : State) :
    (observe (es ++ [.reset]) s).2 = applyReset (observe es s).2 := by
  rw [observe_append, observe_cons [] (deliver_reset _)]; rfl

/-! ## What stays constructed (R118) -/

/-- Every slot and the parity unit that are constructed in `s` are constructed in `t`. -/
abbrev State.ConstructedIn (s t : State) : Prop :=
  (∀ k : SlotIx, (s.slot k).valid = true → (t.slot k).valid = true) ∧
  (s.par.pvalid = true → t.par.pvalid = true)

/-- FCFG, PCFG and PSET write constructed values, and the other commands write neither the slots nor the parity
unit. -/
theorem exec_keeps_constructed {i : Instr} {s t : State} (h : exec i s = .next t) : s.ConstructedIn t := by
  refine ⟨fun k hk => ?_, fun hp => ?_⟩
  · obtain hs | ⟨l, z, -, -, hs⟩ := exec_slot h k
    · rw [hs, hk]
    · rw [hs]
  · obtain ⟨e, rfl⟩ | ⟨r, a, rfl⟩ | ⟨k, l, z, -, -, rfl⟩ | ⟨c, -, -, rfl⟩ | ⟨-, -, rfl⟩ := exec_next h
    case inr.inr.inr.inl => rfl
    all_goals exact hp

theorem performPort_keeps_constructed {s t : State} (h : performPort s = .next t) : s.ConstructedIn t := by
  obtain ⟨i, hi⟩ | rfl := performPort_next h
  · exact exec_keeps_constructed hi
  · exact ⟨fun _ => id, id⟩

/-- No command returns a slot or the parity unit to "not constructed" (R118). -/
theorem deliver_command_keeps_constructed {c : Word} {o : Operand} {s t : State}
    (h : deliver (.command c o) s = .next t) : s.ConstructedIn t :=
  performPort_keeps_constructed (s := s.drive c o) h

/-! ## Observing a command by its meaning (R33), and PPACK in the race (R122) -/

/-- The observation of a run whose first event is a command of the block. -/
theorem observe_cons_of_exec {i : Instr} {o : Operand} {s t : State} (es : List HostEvent)
    (h : exec i (s.drive (encode i) o) = .next t) :
    observe (.command (encode i) o :: es) s = (t.resp :: (observe es t).1, (observe es t).2) :=
  observe_cons es ((deliver_encode i o s).trans h)

/-- PPACK of a constructed unit without a payload (R86). -/
theorem exec_ppack_of_noData {s : State} (hv : s.par.pvalid = true) (hd : s.par.dvalid = false) :
    exec .ppack s = .next (s.setResp (errorResp .noDataError)) :=
  exec_of_missingData (i := .ppack) (ne_false_of_eq_true hv) hd

/-! ## Nothing constructed (R117) -/

/-- The seven commands that need a slot or the parity unit, on a slot and a unit that are not constructed. -/
theorem missingInstance_of_unconstructed {s : State} {k : SlotIx} (hk : (s.slot k).valid = false)
    (hp : s.par.pvalid = false) :
    ∀ i ∈ [Instr.ffoot k, .funpack k, .fpack k, .fdesc k, .pset, .pget, .ppack], MissingInstance i s := by
  simp only [List.forall_mem_cons, MissingInstance]
  exact ⟨hk, hk, hk, hk, hp, hp, hp, by simp⟩

/-- A slot that is not constructed equals nothing (R71). -/
theorem not_fieldsEqual_of_invalid {f : Slot} (hf : f.valid = false) (g : Slot) : ¬ fieldsEqual f g = true := by
  rw [fieldsEqual_iff, hf]; simp

/-! ## The statements -/

/-- Settles O11: a step delivers an event or keeps the state, and the port does not see the response. -/
theorem everyCommandCompletesInOneStep : Obligations.EveryCommandCompletesInOneStep := by
  refine ⟨step_total, fun s w o => ?_⟩
  obtain ⟨t, ht⟩ := deliver_total (.command w o) s
  exact ⟨t, fun r => (deliver_command_setResp w o s r).trans ht⟩

/-- Settles O13: the last event resets whatever state the run has reached, and no event changes the host's list. -/
theorem runThatEndsInAResetEndsInTheResetState : Obligations.RunThatEndsInAResetEndsInTheResetState := by
  intro s es
  refine ⟨(observe es s).2.cmd, (observe es s).2.opnd, ?_⟩
  rw [observe_concat_reset, applyReset_eq, observe_program]

/-- Settles O41: the second PSET replaces the payload, a PCFG discards it, and PPACK answers for what stands there. -/
theorem parityUnitRace : Obligations.ParityUnitRace := by
  intro s a b c hv hc
  have hset := exec_pset_of_constructed (s := s.drive (encode .pset) a) hv
  refine ⟨?_, ?_⟩
  · rw [observe_cons_of_exec _ hset, observe_cons_of_exec _ (exec_pset_of_constructed (by exact hv)),
      observe_cons_of_exec _ (exec_ppack_of_data (by exact hv) rfl)]
    rfl
  · rw [observe_cons_of_exec _ hset, observe_cons_of_exec _ (exec_pcfg_of_legal ((legalConv_iff c).mpr hc) _),
      observe_cons_of_exec _ (exec_ppack_of_noData rfl rfl)]
    rfl

/-- Settles O46: a reset empties every slot and the parity unit, and a command keeps both constructed. -/
theorem onlyResetUnconstructs : Obligations.OnlyResetUnconstructs := by
  intro s t e h
  cases e with
  | reset =>
    cases h
    exact ⟨fun k _ => iff_of_true (by rw [applyReset_slot]; rfl) rfl, fun _ => iff_of_true rfl rfl⟩
  | command c o =>
    obtain ⟨hslot, hpar⟩ := deliver_command_keeps_constructed h
    exact ⟨fun k hk => iff_of_false (ne_false_of_eq_true (hslot k hk)) (by simp),
      fun hp => iff_of_false (ne_false_of_eq_true (hpar hp)) (by simp)⟩

/-- Settles O8: the step delivers the reset. -/
theorem resetEventRestoresTheResetState : Obligations.ResetEventRestoresTheResetState := by
  intro s es hp
  rw [step, nextEvent_cons hp, deliver_reset, applyReset_eq]; rfl

/-- Settles O42: every slot and the parity unit are unconstructed after reset, and no legal construction or PCOMP
needs them. -/
theorem afterResetNothingIsConstructed : Obligations.AfterResetNothingIsConstructed := by
  intro o k j
  have hk : (State.slot { State.reset with opnd := o } k).valid = false := congrArg Slot.valid (State.reset_slot k)
  refine ⟨fun i hi => exec_of_missingInstance (missingInstance_of_unconstructed hk rfl i hi),
    exec_feq_of_different (not_fieldsEqual_of_invalid hk _), fun c hc => ?_, fun l z hf => ?_⟩
  · have hl : legalConv c = true := (legalConv_iff c).mpr hc
    exact ⟨⟨_, exec_pcomp_of_legal hl _, rfl⟩, _, exec_pcfg_of_legal hl _, rfl⟩
  · exact ⟨_, exec_fcfg_of_legal ((legalField_iff l z).mpr hf) k _, rfl⟩

end Sys2Proof.Machine
